-- ==== Sys2Proof/Word.lean ====
section
/-!
DEFINITION. The word types of the part: bytes of the link and the setup bus, 16-bit and 32-bit fields, the 12-bit
codes of the monitor (00 "Electrical units"), sets of slots (11 R197) and slot numbers (00 "Slots").
-/
namespace Sys2Proof

/-- A byte of the service link, of the setup bus or of an identity record. -/
abbrev Byte := BitVec 8

/-- A two-byte field of the link, and a parameter word (00 "Numbers"). -/
abbrev Word := BitVec 16

/-- A four-byte field of the link. -/
abbrev Long := BitVec 32

/-- A current code (5 mA) or a voltage code (10 mV) of the monitor. -/
abbrev Code := BitVec 12

/-- A set of slots: bit n stands for slot n (11 R197). -/
abbrev SlotSet := BitVec 12

/-- A slot number, 0 to 11. -/
abbrev SlotId := Fin 12

end Sys2Proof
end

