-- ==== Sys2Proof/Syntax.lean ====
section
/-!
DEFINITION. The commands of the block: one constructor for each row of spec/opcode_table.json. A host command row
carries the frame's tag and the payload fields of 11.2 as they stand on the link; an event row carries what the event
itself tells the part (a pin's level, a sample, the data a card sent).
-/
namespace Sys2Proof

/-- The two staggered contacts of a slot (01 section 1.3). -/
inductive Contact where
  | early
  | late
  deriving DecidableEq, Repr

/-- One sample of the monitor, without its time tag (05 R83); also a stored frame of the recorder (09 R162). -/
structure MonitorSample where
  currents : Vector Code 12
  rail : Code
  pg : SlotSet
  deriving DecidableEq, Repr

/-- The five sources of trigger conditions (09 R168). -/
inductive TriggerSource where
  | slotOvercurrent
  | slotPowerLost
  | railDip
  | host
  | external
  deriving DecidableEq, Repr

/-- A trigger condition: its source and, for the two slot sources, the slot (09 R168). -/
structure Trigger where
  source : TriggerSource
  slot : Option SlotId
  deriving DecidableEq, Repr

/-- How a transaction came to its end on the selected pair, or to a byte boundary within it (02 R34 to R39, R41, R44).
Every count is from the next byte of the job in progress on. -/
inductive BusEnd where
  /-- Every byte left has passed and the card accepted all it was sent; `data` is what the card sent. -/
  | finished (data : List Byte)
  /-- `index` more bytes passed, and the card refused the one after them (R39). -/
  | nak (index : Nat)
  /-- A byte boundary short of the transaction's end: `bytes` more have passed, the card's own among them `data`
  (R41, R44). -/
  | boundary (bytes : Nat) (data : List Byte)
  deriving DecidableEq, Repr

/-- A character as RXD gave it after its start bit (10 R184): the levels sampled near the middle of the eight data bits, in
the order received, and of the stop bit. -/
structure Character where
  bits : Vector Bool 8
  stop : Bool
  deriving DecidableEq, Repr

/-- A byte that was not completed in time (02 R39): `index` more bytes passed before it, the card's own among them `data`. -/
structure LateByte where
  index : Nat
  data : List Byte
  deriving DecidableEq, Repr

/-- The seven values a SET_SLOT_TIMES command carries (01 R26, 11.2). -/
structure SlotTimesFields where
  debounce : Word
  rampLimit : Word
  resetHold : Word
  readyTimeout : Word
  consentTimeout : Word
  cooldown : Word
  retryLimit : Word
  deriving DecidableEq, Repr

/-- The six values a SET_POWER command carries (05 R85, 11.2). -/
structure PowerFields where
  budget : Word
  rampLimit : Word
  margin : Word
  inrush : Word
  filter : Word
  railDip : Word
  deriving DecidableEq, Repr

/-- The fields a POLICY_WRITE command carries (03 R57, 11.2). -/
structure PolicyFields where
  entry : Byte
  kind : Byte
  pattern : Long
  mask : Long
  action : Byte
  rank : Byte
  set : Byte
  deriving DecidableEq, Repr

/-- The fields a REC_SET command carries (09 R164, 11.2). -/
structure RecSetFields where
  mode : Byte
  pre : Word
  overlap : Word
  decimation : Byte
  gateTail : Word
  enables : Byte
  traceOut : Byte
  deriving DecidableEq, Repr

/-- The commands of the block, in the order of the table. -/
inductive Instr where
  | coldReset (rateHigh : Bool)
  | partStatus (tag : Byte)
  | warmRestart (tag : Byte)
  | warmRestartPerform
  | setSlotTimes (tag : Byte) (v : SlotTimesFields)
  | setPower (tag : Byte) (v : PowerFields)
  | setCycle (tag : Byte) (mode : Byte) (length : Long) (tolerance : Word)
  | slotStatus (tag : Byte) (slot : Byte)
  | slotIdentity (tag : Byte) (slot : Byte)
  | slotConsent (tag : Byte) (slot : Byte) (decision : Byte)
  | slotPark (tag : Byte) (slot : Byte)
  | slotResume (tag : Byte) (slot : Byte)
  | slotRestart (tag : Byte) (slot : Byte)
  | slotDisable (tag : Byte) (slot : Byte)
  | slotEnable (tag : Byte) (slot : Byte)
  | slotClearBar (tag : Byte) (slot : Byte)
  | policyWrite (tag : Byte) (v : PolicyFields)
  | policyRead (tag : Byte) (entry : Byte)
  | policyDefault (tag : Byte) (action : Byte)
  | policyFreeze (tag : Byte)
  | keyLoad (tag : Byte) (keySlot : Byte) (key : List Byte)
  | keyErase (tag : Byte) (keySlot : Byte)
  | keyStatus (tag : Byte)
  | paramBegin (tag : Byte) (set : Byte) (length : Word)
  | paramLoad (tag : Byte) (set : Byte) (offset : Word) (count : Byte) (words : List Word)
  | paramStatus (tag : Byte) (set : Byte)
  | paramFree (tag : Byte) (set : Byte)
  | planRead (tag : Byte) (position : Byte)
  | cycleStatus (tag : Byte)
  | recSet (tag : Byte) (v : RecSetFields)
  | recArm (tag : Byte)
  | recStop (tag : Byte)
  | recTrigger (tag : Byte)
  | recEvent (tag : Byte)
  | recStatus (tag : Byte)
  | recData (tag : Byte) (offset : Word) (count : Byte)
  | recRelease (tag : Byte)
  | frameReceived (lastCrcByte : Character)
  | gapAbort
  | txFrameSent
  | txFrameBegin
  | contactRawChange (slot : SlotId) (contact : Contact) (made : Bool)
  | debounceExpiry (slot : SlotId) (contact : Contact)
  | cooldownExpiry (slot : SlotId)
  | settleExpiry (slot : SlotId)
  | jobComplete (how : BusEnd)
  | busTimeout (late : LateByte)
  | jobCompletionTaken (slot : SlotId)
  | consentTimeout (slot : SlotId)
  | monitorFrame (sample : MonitorSample)
  | slotFrameTaken (slot : SlotId)
  | rampTimerExpiry (slot : SlotId)
  | resetHoldExpiry (slot : SlotId)
  | pollIntervalExpiry (slot : SlotId)
  | readyTimeout (slot : SlotId)
  | setReadyAnnouncement (slot : SlotId)
  | markBegin
  | cycleStart
  | markPulseEnd (width : Nat) (sinceStart : Nat)
  | markLongPulse
  | lostTimeout
  | adoptionReportTaken (slot : SlotId)
  | windowStart
  | accessPartEnd
  | strobeTickEnd (rdyHigh : Bool)
  | windowGapStart
  | windowOutcomeTaken (slot : SlotId)
  | recorderFrameTaken
  | triggerTaken (trigger : Trigger)
  | traceInTrigger
  | traceOutPulseEnd
  | gateReportTaken (slot : SlotId)
  | gateTailExpiry
  | resetAsserted
  | receivedByteTaken (character : Character)
  deriving DecidableEq, Repr

end Sys2Proof
end

