-- ==== Sys2Proof/Decode.lean ====
section
/-!
DEFINITION. The table's words. spec/opcode_table.json gives no row any bits: the commands of this block are frames of
the service link and events, not words. So no word spells a command. How a frame's KIND and payload select a host
command is Machine/Frames.lean (10 R188, 11.2).
-/
namespace Sys2Proof

/-- The command that the word `w` of `nbits` bits spells by the table's bits: none, as no row has bits. -/
def decodeTableWord (_nbits _w : Nat) : Option Instr := none

end Sys2Proof
end

