-- ==== Sys2Proof/Config.lean ====
section
/-!
DEFINITION. The fixed numbers of the part that no command changes. The manual calls no result of a command undefined
or unpredictable, so the configuration holds no free value (log 30).
-/
namespace Sys2Proof.Config

/-- The reply queue holds up to four replies (10 R190). -/
def replyPlaces : Nat := 4

/-- The longest payload of a frame (10 R185). -/
def maxPayload : Nat := 240

/-- The fixed poll interval of READY_WAIT in milliseconds (01 R27, 05 R102). -/
def pollInterval : Nat := 5

/-- Frames of the recorder's trace memory (09 R162). -/
def traceFrames : Nat := 6144

/-- The first window of a plan starts 50 ticks after the cycle start (08 R141). -/
def leadGap : Nat := 50

/-- Ticks kept free from the plan's end to the next cycle start (08 R141). -/
def planReserve : Nat := 250

/-- Microseconds from one monitor frame to the next (05 R83). -/
def framePeriod : Nat := 10

end Sys2Proof.Config
end

