-- ==== Sys2Proof/Machine/Bytes.lean ====
section
/-!
DEFINITION. Byte order, characters and the frame check: how numbers stand in frames and records (11 R197, most significant
byte first), how a byte stands on TXD and RXD (10 R184) and the CRC of the link (10 R185).
-/
namespace Sys2Proof

/-- The byte of a character taken from RXD: its data bits, least significant first; a stop bit received low is not judged
(10 R184). -/
def Character.byte (c : Character) : Byte :=
  c.bits.toList.foldr (fun high rest => rest <<< 1 ||| (if high then 1 else 0)) 0

/-- A byte as a character, its stop bit high. -/
def Character.ofByte (b : Byte) : Character := { bits := Vector.ofFn fun k => b.getLsbD k, stop := true }

/-- The ten bit times of a character: the start bit, low; the data bits in order; the stop bit (10 R184). -/
def Character.levels (c : Character) : List Bool := false :: c.bits.toList ++ [c.stop]

end Sys2Proof

namespace Sys2Proof.Machine

/-- A one-byte field. -/
def u8 (n : Nat) : List Byte := [BitVec.ofNat 8 n]

/-- A two-byte field, most significant byte first. -/
def u16 (n : Nat) : List Byte := [BitVec.ofNat 8 (n / 256), BitVec.ofNat 8 n]

/-- A four-byte field, most significant byte first. -/
def u32 (n : Nat) : List Byte := u16 (n / 65536) ++ u16 n

/-- A flag or a presence byte: 01h or 00h (11 R197). -/
def flagByte (b : Bool) : Byte := if b then 1 else 0

/-- A field that may be absent: a presence byte, then the field, its bytes 00h when absent (11 R197). -/
def optional (field : Nat → List Byte) : Option Nat → List Byte
  | some n => flagByte true :: field n
  | none => flagByte false :: (field 0).map fun _ => 0

/-- The number that bytes hold, most significant byte first. -/
def fromBytes (bytes : List Byte) : Nat := bytes.foldl (fun n b => n * 256 + b.toNat) 0

/-- The byte at an index, 00h beyond the end. -/
def byteAt (bytes : List Byte) (i : Nat) : Byte := bytes.getD i 0

/-- The number in `width` bytes from an index on. -/
def fieldAt (bytes : List Byte) (i width : Nat) : Nat := fromBytes ((bytes.drop i).take width)

/-- `bytes` followed by 00h up to `n` places (11 R198). -/
def padTo (n : Nat) (bytes : List Byte) : List Byte := bytes ++ List.replicate (n - bytes.length) 0

/-- The 16-bit words that bytes hold, high byte first; an odd last byte is no word. -/
def wordsOf : List Byte → List Word
  | hi :: lo :: rest => BitVec.ofNat 16 (hi.toNat * 256 + lo.toNat) :: wordsOf rest
  | _ => []

/-- One bit of the CRC: shift left, and subtract the generator x^16 + x^12 + x^5 + 1 if a one fell out. -/
def crcBit (r : Word) : Word := if r.msb then (r <<< 1) ^^^ 0x1021#16 else r <<< 1

/-- One byte of the CRC, most significant bit first. -/
def crcByte (r : Word) (b : Byte) : Word :=
  crcBit (crcBit (crcBit (crcBit (crcBit (crcBit (crcBit (crcBit (r ^^^ (b.setWidth 16 <<< 8)))))))))

/-- The CRC of a frame's LEN, KIND, TAG and payload (10 R185): it starts at FFFFh, is not reflected and not inverted. -/
def crc (bytes : List Byte) : Word := bytes.foldl crcByte 0xFFFF#16

/-- The sync byte that opens a frame (10 R185). -/
def syncByte : Byte := 0x5C#8

/-- A whole frame on the line: sync, LEN, KIND, TAG, payload, CRC high byte first (10 R185, 11.1). -/
def frameBytes (kind tag : Byte) (payload : List Byte) : List Byte :=
  let body := BitVec.ofNat 8 payload.length :: kind :: tag :: payload
  syncByte :: body ++ u16 (crc body).toNat

end Sys2Proof.Machine
end

