-- ==== Sys2Proof/Machine/State.lean ====
section
/-!
DEFINITION. The state of the block as plain data, block by block in the order of 00 "Block overview", and its value
right after reset. INVENTORY.md names the rule behind every field.
-/
namespace Sys2Proof.Machine

/-- No command of this block stops the machine: a card's failure is a transition of its slot (01 R15), a damaged
frame is counted (10 R187), a command that is not taken is answered (10 R189). So there is no fault to raise. -/
inductive Fault where
  deriving DecidableEq, Repr

/-- Why a command has no meaning in the model. -/
inductive Refusal where
  /-- Raised by an arm of `exec` that has no meaning yet; safe. No arm of this model raises it. -/
  | notModelled (mnemonic : String)
  deriving DecidableEq, Repr

/-! ### Slot controllers -/

/-- The twenty slot states (01 section 1.2). -/
inductive SlotState where
  | disabled | empty | mating | identifying | consentWait | unlocking | powerWait | powering | resetHold | readyWait
  | configuring | roomWait | joining | running | parked | refused | faulted | cooldown | barred | removing
  deriving DecidableEq, Repr

/-- The reason codes (01 R3). -/
inductive Reason where
  | none | lateBreak | earlyBreak | rejected | noPolicy | timingRange | windowTooLong | powerRange | badIdentity
  | hostRefused | consentTimeout | keyDenied | noKey | allowanceSpent | inrush | pgTimeout | pgLost | overload
  | notReady | configWrite | setupBus | windowOverrun | configTooLarge | configRejected | noRoom | hostPark
  | hostDisable | warmRestart | paramsWait
  deriving DecidableEq, Repr

/-- A window descriptor, every item of 07 R132. -/
structure Descriptor where
  width : Nat
  burst : Nat
  outTransfers : Nat
  inTransfers : Nat
  setupCode : Nat
  strobeCode : Nat
  holdCode : Nat
  setupQ : Nat
  strobeQ : Nat
  holdQ : Nat
  fullAccess : Nat
  shortAccess : Nat
  outFull : Nat
  outShort : Nat
  inFull : Nat
  inShort : Nat
  stretch : Nat
  gap : Nat
  length : Nat
  deriving DecidableEq, Repr

/-- The clamp flags held beside the descriptor (07 R132). -/
structure ClampFlags where
  stretchClamped : Bool
  strobeRaised : Bool
  accessRaised : Bool
  deriving DecidableEq, Repr

/-- The screening results of a slot record (01 R2). `identity` is the record's bytes as read (03 R51). -/
structure Screening where
  identity : Option (List Byte)
  matched : Option (Fin 16)
  rank : Option Nat
  paramSet : Option (Fin 8)
  window : Option Descriptor
  clamps : ClampFlags
  deriving DecidableEq, Repr

/-- Screening results made absent, clamp flags cleared (01 R2). -/
def Screening.absent : Screening :=
  { identity := none, matched := none, rank := none, paramSet := none, window := none,
    clamps := { stretchClamped := false, strobeRaised := false, accessRaised := false } }

/-- How long a slot's standby supply has been on, as far as 02 R33 asks. -/
inductive Standby where
  | off        -- the time is unset
  | settling   -- on for less than 2 ms
  | settled    -- on for 2 ms or more
  deriving DecidableEq, Repr

/-- The timers of a slot that belong to one slot state (01 R27); a running timer holds the time it was started with. -/
structure StateTimers where
  consent : Option Nat
  ramp : Option Nat
  resetHold : Option Nat
  ready : Option Nat
  poll : Option Nat
  cooldown : Option Nat
  deriving DecidableEq, Repr

/-- All state timers idle. -/
def StateTimers.idle : StateTimers :=
  { consent := none, ramp := none, resetHold := none, ready := none, poll := none, cooldown := none }

/-- A monitor frame: a sample with the time tag of its taking (05 R83). -/
structure MonitorFrame where
  time : Long
  sample : MonitorSample
  deriving DecidableEq, Repr

/-- The five transactions of the engine (02 section 2.2). -/
inductive TransactionKind where
  | identRead | statusRead | unlock | blockWrite | commit
  deriving DecidableEq, Repr

/-- The outcomes of a job (02 R42). -/
inductive JobOutcome where
  | done | granted | denied | accepted | rejected | cardNak | busTimeout | aborted
  deriving DecidableEq, Repr

/-- A job completion on its way to a slot controller (02 R42); `words` is the word count a BLOCK_WRITE wrote (R37),
`byteIndex` the failing byte's index (R39) or, for ABORTED, the number of bytes transferred (R44). -/
structure Completion where
  kind : TransactionKind
  outcome : JobOutcome
  data : List Byte
  words : Nat
  byteIndex : Option Nat
  deriving DecidableEq, Repr

/-- A window outcome (08 R156). -/
inductive WindowOutcome where
  | clean | overrun
  deriving DecidableEq, Repr

/-- Events sent to a slot controller and not yet taken, oldest first. -/
structure SlotInbox where
  frames : List MonitorFrame
  completions : List Completion
  announcements : List (Fin 8)
  adoptionReports : Nat
  outcomes : List WindowOutcome
  deriving DecidableEq, Repr

/-- A slot controller: the slot record of 01 section 1.1, the slot's lines and what the controller holds besides. -/
structure Slot where
  state : SlotState
  reason : Reason
  early : Bool
  late : Bool
  screening : Screening
  allowance : Nat
  faultCount : Nat
  overruns : Nat
  transitions : Nat
  wordsWritten : Nat
  residual : Nat
  traceRef : Option Nat
  grant : Bool
  stbyEn : Bool
  mainEn : Bool
  cardRst : Bool
  standby : Standby
  earlyRaw : Bool
  lateRaw : Bool
  debounceEarly : Option Nat
  debounceLate : Option Nat
  timers : StateTimers
  pollDue : Bool
  readBuffer : List Byte
  walkPos : Nat
  offers : Nat
  transferCount : Nat
  pin : Option (Fin 8)
  overCurrentRun : Nat
  pgGoodRun : Nat
  pgLostRun : Nat
  threshold : Option Nat
  inbox : SlotInbox
  deriving DecidableEq, Repr

/-- A slot as a cold reset leaves it, with the raw contact levels its pins then have (01 R29). -/
def Slot.reset (earlyRaw lateRaw : Bool) : Slot :=
  { state := .empty, reason := .none, early := false, late := false, screening := Screening.absent, allowance := 3,
    faultCount := 0, overruns := 0, transitions := 0, wordsWritten := 0, residual := 0, traceRef := none,
    grant := false, stbyEn := false, mainEn := false, cardRst := true, standby := .off, earlyRaw := earlyRaw,
    lateRaw := lateRaw, debounceEarly := none, debounceLate := none, timers := StateTimers.idle, pollDue := false,
    readBuffer := [], walkPos := 0, offers := 0, transferCount := 0, pin := none, overCurrentRun := 0, pgGoodRun := 0,
    pgLostRun := 0, threshold := none,
    inbox := { frames := [], completions := [], announcements := [], adoptionReports := 0, outcomes := [] } }

/-- The slot timer settings, in milliseconds but for the consent timeout in seconds (01 R26). -/
structure SlotTimes where
  debounce : Nat
  rampLimit : Nat
  resetHold : Nat
  readyTimeout : Nat
  consentTimeout : Nat
  cooldown : Nat
  retryLimit : Nat
  deriving DecidableEq, Repr

/-! ### Setup bus engine -/

/-- A transaction with its arguments (02 R34 to R38). A BLOCK_WRITE names the pinned set its words are read from. -/
inductive Transaction where
  | identRead (offset count : Nat)
  | statusRead
  | unlock (keySlot : Fin 4) (key : List Byte)
  | blockWrite (set : Fin 8) (offset count : Nat)
  | commit (total : Nat)
  deriving DecidableEq, Repr

/-- A job: the slot it belongs to and its transaction (02 R40). -/
structure Job where
  slot : SlotId
  transaction : Transaction
  deriving DecidableEq, Repr

/-- The job in progress (02 R41): `nextByte` is the index of the next byte, the bytes of both sides counted, `received`
what the card has sent so far; `held` while the job waits for standby to settle (R33); `cutBytes` the engine's bytes as
the abort request found them, empty before one (R37, R44, log 38). -/
structure CurrentJob where
  job : Job
  held : Bool
  nextByte : Nat
  received : List Byte
  abort : Bool
  cutBytes : List Byte
  deriving DecidableEq, Repr

/-- What passes on a setup-bus pair in one bit time (02 R31): a start condition, one bit of a byte or of its
acknowledgement with the level of SB_DAT, or a stop condition. -/
inductive BusSymbol where
  | start
  | bit (high : Bool)
  | stop
  deriving DecidableEq, Repr

/-- A transaction as it passed on the pair of its slot (02 R31, R32). -/
structure BusRecord where
  slot : SlotId
  symbols : List BusSymbol
  deriving DecidableEq, Repr

/-- The setup bus engine: job queue oldest first, job in progress, deferred jobs (02 R40, R41, R46), and the transaction
that ended last, as it passed on its pair (R31). -/
structure Engine where
  queue : List Job
  current : Option CurrentJob
  deferred : List Job
  ended : Option BusRecord
  deriving DecidableEq, Repr

/-! ### Admission filter and credential store -/

/-- The kind of a policy entry (03 R54). -/
inductive EntryKind where
  | unused | accept | reject
  deriving DecidableEq, Repr

/-- The action of an ACCEPT entry (03 R54). -/
inductive PolicyAction where
  | allow | consent
  deriving DecidableEq, Repr

/-- The default action (03 R59). -/
inductive DefaultAction where
  | refuse | consent
  deriving DecidableEq, Repr

/-- A policy entry (03 R54). -/
structure PolicyEntry where
  kind : EntryKind
  pattern : Long
  mask : Long
  action : PolicyAction
  rank : Nat
  set : Option (Fin 8)
  deriving DecidableEq, Repr

/-- The admission filter (03 R54, R59, R60). -/
structure Policy where
  entries : Vector PolicyEntry 16
  default : DefaultAction
  frozen : Bool
  deriving DecidableEq, Repr

/-- A key slot of the credential store: sixteen bytes and a loaded flag (04 R69). -/
structure KeySlot where
  loaded : Bool
  key : List Byte
  deriving DecidableEq, Repr

/-! ### Power allowance arbiter and monitor -/

/-- An entry of the power queue (05 R89). -/
structure PowerEntry where
  slot : SlotId
  power : Nat
  deriving DecidableEq, Repr

/-- The power allowance arbiter (05 R89). -/
structure Arbiter where
  budget : Nat
  rampLimit : Nat
  committed : Nat
  ramping : Nat
  queue : List PowerEntry
  deriving DecidableEq, Repr

/-- The monitor's settings and the microsecond time-stamp counter (05 R83, R85, R105). -/
structure Monitor where
  margin : Nat
  inrush : Nat
  filter : Nat
  railDip : Nat
  timeStamp : Long
  deriving DecidableEq, Repr

/-! ### Parameter store -/

/-- The state of a parameter set (06 section 6.1). -/
inductive SetState where
  | empty | loading | ready
  deriving DecidableEq, Repr

/-- A parameter set (06 R107). `words` holds the words loaded so far, so the written count is its length; every other
word place holds 0000h. -/
structure ParamSet where
  state : SetState
  length : Nat
  words : List Word
  pins : Nat
  deriving DecidableEq, Repr

/-! ### Cycle planner and cycle sequencer -/

/-- The cycle modes (08 section 8.1). -/
inductive CycleMode where
  | off | master | follower
  deriving DecidableEq, Repr

/-- The planning settings (08 R138). -/
structure CycleSettings where
  mode : CycleMode
  length : Nat
  tolerance : Nat
  deriving DecidableEq, Repr

/-- A window of the pending plan (08 R141). -/
structure PlanWindow where
  slot : SlotId
  rank : Nat
  window : Descriptor
  deriving DecidableEq, Repr

/-- The cycle planner: planning settings, pending plan, room queue (08 R138, R141, R143). -/
structure Planner where
  settings : CycleSettings
  plan : List PlanWindow
  room : List SlotId
  deriving DecidableEq, Repr

/-- The sequencer's states (08 R138). -/
inductive SequencerState where
  | stopped | running | seeking | locked | suspended
  deriving DecidableEq, Repr

/-- A window of the active plan; `muted` says whether it is in the mute set (08 R146, R148). -/
structure ActiveWindow where
  slot : SlotId
  rank : Nat
  start : Nat
  window : Descriptor
  muted : Bool
  deriving DecidableEq, Repr

/-- The part of a window being run (08 R154): a part of an access, or what follows the last access up to the gap. -/
inductive AccessPart where
  | setup | strobe | hold | tail
  deriving DecidableEq, Repr

/-- The window being run, with SEL asserted for its slot (08 R154, R155): phase, number of the transfer in the phase,
part, length of the present strobe so far, accumulated stretch, overrun mark, and the ticks from the window's start to
the start of the present part. -/
structure WindowRun where
  slot : SlotId
  window : Descriptor
  inPhase : Bool
  index : Nat
  part : AccessPart
  strobeTicks : Nat
  stretch : Nat
  overrun : Bool
  elapsed : Nat
  deriving DecidableEq, Repr

/-- The cycle sequencer (08 R138 to R156). -/
structure Sequencer where
  state : SequencerState
  length : Nat
  tolerance : Nat
  active : List ActiveWindow
  cycleCount : Long
  earlyCount : Nat
  lostCount : Nat
  illegalCount : Nat
  markLow : Bool
  longPulse : Bool
  next : Option Nat
  run : Option WindowRun
  deriving DecidableEq, Repr

/-! ### Fault recorder -/

/-- The recorder's settings (09 R164). -/
structure RecSettings where
  mode : Nat
  pre : Nat
  overlap : Nat
  decimation : Nat
  gateTail : Nat
  enables : BitVec 5
  traceOut : Bool
  deriving DecidableEq, Repr

/-- A capture under way (09 R171, R174): source, remaining count, whether the trigger frame is awaited, pre present, and
what the trigger frame gave. -/
structure Capture where
  source : Trigger
  remaining : Nat
  awaiting : Bool
  pre : Nat
  triggerIndex : Nat
  time : Long
  cycle : Long
  deriving DecidableEq, Repr

/-- The recorder's states (09 R164). -/
inductive RecState where
  | stopped
  | fillingPre
  | ready
  | capturing (c : Capture)
  | full
  deriving DecidableEq, Repr

/-- An event record (09 R177). -/
structure EventRecord where
  sequence : Nat
  segment : Nat
  stop : Nat
  triggerIndex : Nat
  pre : Nat
  source : Trigger
  pattern : SlotSet
  time : Long
  cycle : Long
  gateOpen : Bool
  refused : Nat
  deriving DecidableEq, Repr

/-- A slot's report of entering or leaving the bring-up group (09 R170). -/
structure GateReport where
  slot : SlotId
  entering : Bool
  deriving DecidableEq, Repr

/-- The trace memory: the written frame places, each with its stored frame, in canonical form (log 9). -/
abbrev Memory := List (Nat × MonitorSample)

/-- The fault recorder (09). `memory` lists the written frame places of the trace memory in canonical form. -/
structure Recorder where
  state : RecState
  settings : RecSettings
  memory : Memory
  w : Nat
  r : Nat
  lastWrite : Bool
  events : List EventRecord
  writePos : Nat
  written : Nat
  skip : Nat
  overlap : Option Trigger
  latches : List TriggerSource
  pattern : SlotSet
  gateOpen : Bool
  gateCount : Nat
  gateTail : Option Nat
  refused : Nat
  sequence : Nat
  traceOutLow : Bool
  frames : List MonitorFrame
  triggers : List Trigger
  gateReports : List GateReport
  deriving DecidableEq, Repr

/-! ### Service link port -/

/-- The line rates (10 R184). -/
inductive LineRate where
  | rate115200 | rate921600
  deriving DecidableEq, Repr

/-- The frame receiver (10 R186); receiving holds the bytes taken since the sync byte, in order. -/
inductive Receiver where
  | hunting
  | receiving (taken : List Byte)
  deriving DecidableEq, Repr

/-- A queued reply (10 R189). -/
structure Reply where
  kind : Byte
  tag : Byte
  payload : List Byte
  deriving DecidableEq, Repr

/-- The causes of a cycle notice (08 R159). -/
inductive CycleCause where
  | stateChange | early | lost | illegal
  deriving DecidableEq, Repr

/-- The causes of a recorder notice (09 R181). -/
inductive RecCause where
  | record | full | discard | stateChange
  deriving DecidableEq, Repr

/-- A waiting notice with the content its source last posted (10 R192). The recorder's state is held by its code,
because the content is what is sent. -/
inductive Notice where
  | slot (slot : SlotId) (state : SlotState) (reason : Reason) (transitions faults : Nat)
  | cycle (cause : CycleCause) (state : SequencerState) (count : Long) (early lost illegal : Nat)
  | recorder (cause : RecCause) (stateCode : Byte) (records : Nat) (newest : Option Nat) (refused : Nat)
  deriving DecidableEq, Repr

/-- The frame on TXD: a reply, which keeps its place in the reply queue, or a notice (10 R190, R191). -/
inductive Transmission where
  | reply (bytes : List Byte)
  | notice (bytes : List Byte)
  deriving DecidableEq, Repr

/-- The service link port (10). -/
structure Link where
  rate : LineRate
  receiver : Receiver
  replies : List Reply
  notices : List Notice
  tx : Option Transmission
  checkFailures : Nat
  gapAborts : Nat
  overruns : Nat
  restartWait : Bool
  deriving DecidableEq, Repr

/-! ### The whole machine -/

/-- The state of the block. -/
structure State where
  pending : List Instr
  inReset : Bool
  slots : Vector Slot 12
  times : SlotTimes
  engine : Engine
  policy : Policy
  keys : Vector KeySlot 4
  arbiter : Arbiter
  monitor : Monitor
  sets : Vector ParamSet 8
  planner : Planner
  sequencer : Sequencer
  recorder : Recorder
  link : Link
  deriving DecidableEq, Repr

/-- The cold-reset timer settings (01 R26). -/
def SlotTimes.reset : SlotTimes :=
  { debounce := 50, rampLimit := 20, resetHold := 10, readyTimeout := 1000, consentTimeout := 10, cooldown := 500,
    retryLimit := 1 }

/-- The engine after a cold reset (02 R48). -/
def Engine.reset : Engine := { queue := [], current := none, deferred := [], ended := none }

/-- A policy entry after a cold reset (03 R62). -/
def PolicyEntry.reset : PolicyEntry :=
  { kind := .unused, pattern := 0, mask := 0, action := .allow, rank := 0, set := none }

/-- The admission filter after a cold reset (03 R62). -/
def Policy.reset : Policy :=
  { entries := Vector.replicate 16 PolicyEntry.reset, default := .refuse, frozen := false }

/-- A key slot that is not loaded (04 R69). -/
def KeySlot.empty : KeySlot := { loaded := false, key := List.replicate 16 0 }

/-- The arbiter after a cold reset (05 R105). -/
def Arbiter.reset : Arbiter := { budget := 2000, rampLimit := 1, committed := 0, ramping := 0, queue := [] }

/-- The monitor after a cold reset (05 R105). -/
def Monitor.reset : Monitor := { margin := 150, inrush := 400, filter := 5, railDip := 2000, timeStamp := 0 }

/-- A parameter set that is EMPTY (06 R107). -/
def ParamSet.empty : ParamSet := { state := .empty, length := 0, words := [], pins := 0 }

/-- The planner after a cold reset (08 R160). -/
def Planner.reset : Planner :=
  { settings := { mode := .off, length := 25000, tolerance := 100 }, plan := [], room := [] }

/-- The sequencer after a cold reset (08 R160). -/
def Sequencer.reset : Sequencer :=
  { state := .stopped, length := 25000, tolerance := 100, active := [], cycleCount := 0, earlyCount := 0,
    lostCount := 0, illegalCount := 0, markLow := false, longPulse := false, next := none, run := none }

/-- The cold-reset recorder settings (09 R164): mode 2, P 96, O 32, k 2, tail 200 ms, all sources but EXTERNAL. -/
def RecSettings.reset : RecSettings :=
  { mode := 2, pre := 96, overlap := 32, decimation := 2, gateTail := 200, enables := 0b01111, traceOut := false }

/-- The recorder after a cold reset (09 R182). -/
def Recorder.reset : Recorder :=
  { state := .stopped, settings := RecSettings.reset, memory := [], w := 0, r := 0, lastWrite := false, events := [],
    writePos := 0, written := 0, skip := 0, overlap := none, latches := [], pattern := 0, gateOpen := false,
    gateCount := 0, gateTail := none, refused := 0, sequence := 0, traceOutLow := false, frames := [], triggers := [],
    gateReports := [] }

/-- The service link port after a cold reset, at a line rate (10 R196). -/
def Link.reset (rate : LineRate) : Link :=
  { rate := rate, receiver := .hunting, replies := [], notices := [], tx := none, checkFailures := 0, gapAborts := 0,
    overruns := 0, restartWait := false }

/-- The machine right after reset: every block's cold-reset values, no card seated and the RATE strap low (log 7). -/
def State.reset : State :=
  { pending := [], inReset := false, slots := Vector.replicate 12 (Slot.reset false false), times := SlotTimes.reset,
    engine := Engine.reset, policy := Policy.reset, keys := Vector.replicate 4 KeySlot.empty, arbiter := Arbiter.reset,
    monitor := Monitor.reset, sets := Vector.replicate 8 ParamSet.empty, planner := Planner.reset,
    sequencer := Sequencer.reset, recorder := Recorder.reset, link := Link.reset .rate115200 }

end Sys2Proof.Machine
end

