-- ==== Sys2Proof/Machine/Operands.lean ====
section
/-!
DEFINITION. How operands are read and how names are coded: the codes of 11.3, the arguments of host commands, and the
fields of an identity record (11.4).
-/
namespace Sys2Proof.Machine

/-! ### Arguments -/

/-- A number read as an index below `n`, or none when it lies beyond. -/
def indexOf (n : Nat) (value : Nat) : Option (Fin n) := if hlt : value < n then some ⟨value, hlt⟩ else none

/-- A slot argument: 0 to 11, else none (00 "Slots"). -/
def slotArg (b : Byte) : Option SlotId := indexOf 12 b.toNat

/-- A parameter set number: 0 to 7, else none (06 section 6.2). -/
def setArg (b : Byte) : Option (Fin 8) := indexOf 8 b.toNat

/-- A key slot number: 0 to 3, else none (04 R70). -/
def keyArg (b : Byte) : Option (Fin 4) := indexOf 4 b.toNat

/-- A value clamped to the nearer limit of a range (01 R26, 05 R85). -/
def clamp (low high value : Nat) : Nat := if value < low then low else if high < value then high else value

/-- Add 1 up to a limit (00 "Counters"). -/
def saturate (limit n : Nat) : Nat := if n < limit then n + 1 else n

/-- x / y rounded up (00 "Numbers"). -/
def ceilDiv (x y : Nat) : Nat := (x + y - 1) / y

/-! ### Codes (11.3) -/

/-- Slot state codes. -/
def SlotState.code : SlotState → Nat
  | .disabled => 0x00 | .empty => 0x01 | .mating => 0x02 | .identifying => 0x03 | .consentWait => 0x04
  | .unlocking => 0x05 | .powerWait => 0x06 | .powering => 0x07 | .resetHold => 0x08 | .readyWait => 0x09
  | .configuring => 0x0A | .roomWait => 0x0B | .joining => 0x0C | .running => 0x0D | .parked => 0x0E
  | .refused => 0x0F | .faulted => 0x10 | .cooldown => 0x11 | .barred => 0x12 | .removing => 0x13

/-- Reason codes. -/
def Reason.code : Reason → Nat
  | .none => 0x00 | .lateBreak => 0x01 | .earlyBreak => 0x02 | .rejected => 0x03 | .noPolicy => 0x04
  | .timingRange => 0x05 | .windowTooLong => 0x06 | .powerRange => 0x07 | .badIdentity => 0x08
  | .hostRefused => 0x09 | .consentTimeout => 0x0A | .keyDenied => 0x0B | .noKey => 0x0C
  | .allowanceSpent => 0x0D | .inrush => 0x0E | .pgTimeout => 0x0F | .pgLost => 0x10 | .overload => 0x11
  | .notReady => 0x12 | .configWrite => 0x13 | .setupBus => 0x14 | .windowOverrun => 0x15
  | .configTooLarge => 0x16 | .configRejected => 0x17 | .noRoom => 0x18 | .hostPark => 0x19
  | .hostDisable => 0x1A | .warmRestart => 0x1B | .paramsWait => 0x1C

/-- The statuses of replies (10 R189). -/
inductive Status where
  | ok | clamped | unknownKind | badLength | badArgument | wrongState | frozen | setInUse | wontFit | empty
  deriving DecidableEq, Repr

/-- Status codes. -/
def Status.code : Status → Byte
  | .ok => 0x00 | .clamped => 0x01 | .unknownKind => 0x02 | .badLength => 0x03 | .badArgument => 0x04
  | .wrongState => 0x05 | .frozen => 0x06 | .setInUse => 0x07 | .wontFit => 0x08 | .empty => 0x09

def EntryKind.code : EntryKind → Nat
  | .unused => 0 | .accept => 1 | .reject => 2

/-- The kind of a policy entry by its code, none for an unassigned one. -/
def entryKindOf (b : Byte) : Option EntryKind :=
  if b = 0 then some .unused else if b = 1 then some .accept else if b = 2 then some .reject else none

def PolicyAction.code : PolicyAction → Nat
  | .allow => 0 | .consent => 1

/-- The action of an ACCEPT entry by its code. -/
def policyActionOf (b : Byte) : Option PolicyAction :=
  if b = 0 then some .allow else if b = 1 then some .consent else none

def DefaultAction.code : DefaultAction → Nat
  | .refuse => 0 | .consent => 1

/-- The default action by its code. -/
def defaultActionOf (b : Byte) : Option DefaultAction :=
  if b = 0 then some .refuse else if b = 1 then some .consent else none

/-- The decision of SLOT_CONSENT by its code: ADMIT 0 (true), REFUSE 1 (false). -/
def decisionOf (b : Byte) : Option Bool := if b = 0 then some true else if b = 1 then some false else none

/-- The parameter set field of POLICY_WRITE: FFh is none, 0 to 7 a set, all else unassigned (03 R57, 11 R197). -/
def policySetOf (b : Byte) : Option (Option (Fin 8)) := if b = 0xFF then some none else (setArg b).map some

def CycleMode.code : CycleMode → Nat
  | .off => 0 | .master => 1 | .follower => 2

/-- The cycle mode by its code. -/
def cycleModeOf (b : Byte) : Option CycleMode :=
  if b = 0 then some .off else if b = 1 then some .master else if b = 2 then some .follower else none

def SequencerState.code : SequencerState → Nat
  | .stopped => 0 | .running => 1 | .seeking => 2 | .locked => 3 | .suspended => 4

def CycleCause.code : CycleCause → Nat
  | .stateChange => 0 | .early => 1 | .lost => 2 | .illegal => 3

def RecState.code : RecState → Nat
  | .stopped => 0 | .fillingPre => 1 | .ready => 2 | .capturing _ => 3 | .full => 4

def RecCause.code : RecCause → Nat
  | .record => 0 | .full => 1 | .discard => 2 | .stateChange => 3

def LineRate.code : LineRate → Nat
  | .rate115200 => 0 | .rate921600 => 1

/-- Parameter set state codes, which 11.3 does not assign: 06 section 6.1 in order (log 36, the model's choice). -/
def SetState.code : SetState → Nat
  | .empty => 0 | .loading => 1 | .ready => 2

/-! ### Setup-bus transactions (02 section 2.2) -/

def Transaction.kind : Transaction → TransactionKind
  | .identRead _ _ => .identRead
  | .statusRead => .statusRead
  | .unlock _ _ => .unlock
  | .blockWrite _ _ _ => .blockWrite
  | .commit _ => .commit

/-- The command byte that opens each transaction. -/
def TransactionKind.commandByte : TransactionKind → Byte
  | .identRead => 0x41 | .statusRead => 0x42 | .unlock => 0x43 | .blockWrite => 0x44 | .commit => 0x45

/-- The bytes the engine sends in a transaction, multi-byte values most significant byte first; a BLOCK_WRITE reads its
words from its set as they stand (02 R37). -/
def Transaction.sentBytes (sets : Vector ParamSet 8) (t : Transaction) : List Byte :=
  t.kind.commandByte ::
    match t with
    | .identRead offset count => u8 offset ++ u8 count
    | .statusRead => []
    | .unlock keySlot key => u8 keySlot.val ++ key
    | .blockWrite set offset count =>
      u16 offset ++ u8 count ++ (List.range count).flatMap fun j => u16 ((sets[set].words.getD (offset + j) 0).toNat)
    | .commit total => u16 total

/-- The number of bytes the card sends in a transaction. -/
def Transaction.answerLength : Transaction → Nat
  | .identRead _ count => count
  | .statusRead => 1
  | .unlock _ _ => 1
  | .blockWrite _ _ _ => 0
  | .commit _ => 1

/-- The number of bytes the engine sends in a transaction. -/
def Transaction.sentLength : Transaction → Nat
  | .identRead _ _ => 3
  | .statusRead => 1
  | .unlock _ _ => 18
  | .blockWrite _ _ count => 4 + 2 * count
  | .commit _ => 3

/-- The word count a BLOCK_WRITE writes; 0 for the other transactions. -/
def Transaction.wordCount : Transaction → Nat
  | .blockWrite _ _ count => count
  | .identRead _ _ | .statusRead | .unlock _ _ | .commit _ => 0

/-! ### What passes on a setup-bus pair (02 R31) -/

/-- A byte's nine clock periods: its bits, most significant first, then the acknowledge bit, in which the receiver leaves
SB_DAT high to refuse it. -/
def byteSymbols (refused : Bool) (b : Byte) : List BusSymbol :=
  (List.range 8).map (fun k => .bit (b.getLsbD (7 - k))) ++ [.bit refused]

/-- Bytes that were all accepted. -/
def acceptedSymbols (bytes : List Byte) : List BusSymbol := bytes.flatMap (byteSymbols false)

/-- The levels of SB_CLK and SB_DAT through one bit time: SB_DAT falls while SB_CLK is high at a start, rises while it is
high at a stop, and stands while SB_CLK is high in a bit. -/
def BusSymbol.levels : BusSymbol → List (Bool × Bool)
  | .start => [(true, true), (true, false)]
  | .bit high => [(false, high), (true, high)]
  | .stop => [(false, false), (true, false), (true, true)]

/-- The bytes the engine sends in the job in progress: read from the set while the pin keeps it, and those of the abort
request after one, which releases the pin (02 R37, R44, log 38). -/
def CurrentJob.sends (cur : CurrentJob) (sets : Vector ParamSet 8) : List Byte :=
  if cur.abort then cur.cutBytes else cur.job.transaction.sentBytes sets

/-- An abort request sets the mark, once, and the engine reads no more of the set (02 R37, R44). -/
def CurrentJob.requestAbort (cur : CurrentJob) (sets : Vector ParamSet 8) : CurrentJob :=
  if cur.abort then cur else { cur with abort := true, cutBytes := cur.job.transaction.sentBytes sets }

/-- The bytes that have passed when `bytes` more have, the card's own among those `data` (02 R41). -/
def CurrentJob.passed (cur : CurrentJob) (sets : Vector ParamSet 8) (bytes : Nat) (data : List Byte) : List Byte :=
  (cur.sends sets).take (cur.nextByte + bytes) ++ cur.received ++ data

/-- Whether a byte of the transaction is left when `bytes` more have passed, the card's own among them being exactly
`data`: the card sends after the engine (02 section 2.2). -/
def CurrentJob.reaches (cur : CurrentJob) (bytes : Nat) (data : List Byte) : Bool :=
  let t := cur.job.transaction
  let next := cur.nextByte + bytes
  next < t.sentLength + t.answerLength ∧ cur.received.length + data.length = next - t.sentLength

/-- Whether an end is one of the transaction: the card has sent all the bytes called for, it refuses a byte the engine
sends, or a byte boundary is reached with a byte left (02 section 2.2, R39, R44). -/
def CurrentJob.fits (cur : CurrentJob) : BusEnd → Bool
  | .finished data => cur.received.length + data.length = cur.job.transaction.answerLength
  | .nak index => cur.nextByte + index < cur.job.transaction.sentLength
  | .boundary bytes data => cur.reaches bytes data

/-- What has passed on the pair of the job in progress: nothing while it is held for settle (02 R33), else the start
condition and the bytes before the next one. -/
def CurrentJob.symbols (cur : CurrentJob) (sets : Vector ParamSet 8) : List BusSymbol :=
  if cur.held then [] else .start :: acceptedSymbols (cur.passed sets 0 [])

/-- Bits of the status byte (02 section 2.2). -/
def readyBit (status : Byte) : Bool := status.getLsbD 0
def lockedBit (status : Byte) : Bool := status.getLsbD 1

/-! ### The identity record (11.4): fields by their places in the record's bytes -/

def identTag (r : List Byte) : Byte := byteAt r 0
def identLength (r : List Byte) : Nat := (byteAt r 1).toNat
/-- The identity code: vendor, class and revision as one number, vendor most significant (03 R53). -/
def identCode (r : List Byte) : Long := BitVec.ofNat 32 (fieldAt r 2 4)
/-- Whether bit k of the key mask is set; bits 4 to 7 are never asked for (03 R53). -/
def identKeyMask (r : List Byte) (k : Nat) : Bool := (byteAt r 10).getLsbD k
def identWidthCode (r : List Byte) : Nat := (byteAt r 11).toNat / 16
def identBurstCode (r : List Byte) : Nat := (byteAt r 11).toNat % 16
def identPower (r : List Byte) : Nat := fieldAt r 12 2
def identOut (r : List Byte) : Nat := fieldAt r 14 2
def identIn (r : List Byte) : Nat := fieldAt r 16 2
def identSetup (r : List Byte) : Nat := fieldAt r 18 2
def identStrobe (r : List Byte) : Nat := fieldAt r 20 2
def identHold (r : List Byte) : Nat := fieldAt r 22 2
def identFloat (r : List Byte) : Nat := fieldAt r 24 2
def identStretch (r : List Byte) : Nat := fieldAt r 26 2
def identArea (r : List Byte) : Nat := fieldAt r 28 2
def identBlock (r : List Byte) : Nat := (byteAt r 30).toNat

/-- Whether the key mask, bits 0 to 3, names any key slot. -/
def identLocked (r : List Byte) : Bool := [0, 1, 2, 3].any (identKeyMask r)

/-- The sum of all bytes modulo 256. -/
def byteSum (r : List Byte) : Byte := r.foldl (· + ·) 0

/-- The header of a record: the tag, then the length, are in order (03 R50). -/
def headerGood (header : List Byte) : Bool :=
  identTag header = 0xD7 ∧ 32 ≤ identLength header ∧ identLength header ≤ 64

/-- A whole record is valid when none of the five failures of 03 R51 holds. -/
def identityValid (r : List Byte) : Bool :=
  byteSum r = 0 ∧ identWidthCode r < 3 ∧ identBurstCode r < 3 ∧ identOut r ≤ 256 ∧ identIn r ≤ 256 ∧
    1 ≤ identPower r ∧ identPower r ≤ 2500 ∧ (identArea r = 0 ∨ (1 ≤ identBlock r ∧ identBlock r ≤ 32))

/-- The steady power of a slot's card; 0 when no identity is present (log 29). -/
def Slot.power (c : Slot) : Nat := (c.screening.identity.map identPower).getD 0

/-- The written count of a set (06 R107). -/
def ParamSet.written (p : ParamSet) : Nat := p.words.length

end Sys2Proof.Machine

namespace Sys2Proof

/-- Trigger source codes (11.3). -/
def TriggerSource.code : TriggerSource → Nat
  | .slotOvercurrent => 0 | .slotPowerLost => 1 | .railDip => 2 | .host => 3 | .external => 4

end Sys2Proof
end

