-- ==== Sys2Proof/Machine/Flags.lean ====
section
/-!
DEFINITION. Flags and lines that follow from the state: the line table of 01 R4, the classes of slot states, the lines
of the sequencer, the engine and the link, and the derived counts of the recorder's ring.
-/
namespace Sys2Proof.Machine

/-- STBY_EN by slot state (01 R4). -/
def SlotState.standbyOn : SlotState → Bool
  | .disabled | .empty | .mating | .barred | .removing => false
  | .identifying | .consentWait | .unlocking | .powerWait | .powering | .resetHold | .readyWait | .configuring
  | .roomWait | .joining | .running | .parked | .refused | .faulted | .cooldown => true

/-- MAIN_EN by slot state (01 R4); the states in which a grant is held (05 R89). -/
def SlotState.mainOn : SlotState → Bool
  | .powering | .resetHold | .readyWait | .configuring | .roomWait | .joining | .running => true
  | .disabled | .empty | .mating | .identifying | .consentWait | .unlocking | .powerWait | .parked | .refused
  | .faulted | .cooldown | .barred | .removing => false

/-- CARD_RST asserted by slot state (01 R4). -/
def SlotState.cardReset : SlotState → Bool
  | .readyWait | .configuring | .roomWait | .joining | .running => false
  | .disabled | .empty | .mating | .identifying | .consentWait | .unlocking | .powerWait | .powering | .resetHold
  | .parked | .refused | .faulted | .cooldown | .barred | .removing => true

/-- The card-present states (01 section 1.2). -/
def SlotState.cardPresent : SlotState → Bool
  | .identifying | .consentWait | .unlocking | .powerWait | .powering | .resetHold | .readyWait | .configuring
  | .roomWait | .joining | .running | .parked | .refused | .faulted | .cooldown => true
  | .empty | .mating | .removing | .disabled | .barred => false

/-- The bring-up group of the recorder's gate (09 R170). -/
def SlotState.inBringUp : SlotState → Bool
  | .powering | .resetHold | .readyWait | .configuring => true
  | .disabled | .empty | .mating | .identifying | .consentWait | .unlocking | .powerWait | .roomWait | .joining
  | .running | .parked | .refused | .faulted | .cooldown | .barred | .removing => false

/-- The states of the overload and PG-lost checks (05 R84). -/
def SlotState.checked : SlotState → Bool
  | .resetHold | .readyWait | .configuring | .roomWait | .joining | .running => true
  | .disabled | .empty | .mating | .identifying | .consentWait | .unlocking | .powerWait | .powering | .parked
  | .refused | .faulted | .cooldown | .barred | .removing => false

/-- The states in which SLOT_PARK is taken (01 R20). -/
def SlotState.parkable : SlotState → Bool
  | .powerWait | .powering | .resetHold | .readyWait | .configuring | .roomWait | .joining | .running => true
  | .disabled | .empty | .mating | .identifying | .consentWait | .unlocking | .parked | .refused | .faulted
  | .cooldown | .barred | .removing => false

/-- The states that a warm restart sends to IDENTIFYING (01 R30). -/
def SlotState.restarted : SlotState → Bool
  | .identifying | .consentWait | .unlocking | .powerWait | .powering | .resetHold | .readyWait | .configuring
  | .roomWait | .joining => true
  | .running | .faulted | .refused | .barred | .parked | .disabled | .cooldown | .empty | .mating | .removing => false

/-- Whether a fault is retryable (01 section 1.6): every fault but the two terminal ones. -/
def Reason.retryable : Reason → Bool
  | .inrush | .pgTimeout | .pgLost | .overload | .notReady | .configWrite | .setupBus | .windowOverrun => true
  | .none | .lateBreak | .earlyBreak | .rejected | .noPolicy | .timingRange | .windowTooLong | .powerRange
  | .badIdentity | .hostRefused | .consentTimeout | .keyDenied | .noKey | .allowanceSpent | .configTooLarge
  | .configRejected | .noRoom | .hostPark | .hostDisable | .warmRestart | .paramsWait => false

/-- SEL of a slot: asserted while its window is being run (08 R154). -/
def State.sel (s : State) (i : SlotId) : Bool :=
  match s.sequencer.run with
  | some run => run.slot = i
  | none => false

/-- STROBE: active in the strobe part of an access (08 R154). -/
def State.strobe (s : State) : Bool :=
  match s.sequencer.run with
  | some run => run.part = .strobe
  | none => false

/-- DIR at its in level: from the first access of the in phase to the end of the in phase (08 R154). -/
def State.dirIn (s : State) : Bool :=
  match s.sequencer.run with
  | some run => run.inPhase && run.part ≠ .tail
  | none => false

/-- LINK_RDY (10 R190, R194, R196). -/
def State.linkRdy (s : State) : Bool :=
  !s.inReset && !s.link.restartWait && s.link.replies.length < Config.replyPlaces

/-- The bytes of the frame on TXD. -/
def Transmission.bytes : Transmission → List Byte
  | .reply bytes | .notice bytes => bytes

/-- The levels that TXD takes, bit time by bit time, for the frame being sent: its bytes back to back, ten bit times each;
none without a frame and in reset (10 R184, R191, R196). -/
def State.txdLevels (s : State) : List Bool :=
  match s.inReset, s.link.tx with
  | false, some frame => frame.bytes.flatMap fun b => (Character.ofByte b).levels
  | false, none | true, _ => []

/-- TXD in a bit time, counted from the start of the frame being sent: the line rests high past the frame's end, without a
frame and in reset (10 R184, R196). -/
def State.txd (s : State) (bitTime : Nat) : Bool := s.txdLevels[bitTime]?.getD true

/-- The selected setup-bus pair SB_CLK/SB_DAT: that of the job in progress; the lines of every other pair are released
(02 R32). -/
def State.selectedPair (s : State) : Option SlotId := s.engine.current.map fun cur => cur.job.slot

/-- Whether the engine drives the selected pair: not while the job waits for standby to settle (02 R33). -/
def State.pairDriven (s : State) : Bool := s.engine.current.any fun cur => !cur.held

/-- SB_CLK and SB_DAT of a slot's pair, high at the card's pull-ups but where a transaction has left them at its last byte
boundary (02 R31, R32). -/
def State.pairLevels (s : State) (i : SlotId) : Bool × Bool :=
  match s.engine.current with
  | some cur =>
    if cur.job.slot = i then (((cur.symbols s.sets).flatMap BusSymbol.levels).getLast?.getD (true, true))
    else (true, true)
  | none => (true, true)

/-- Segments S of a memory mode (09 R162). -/
def segmentsOf (mode : Nat) : Nat := 64 / 2 ^ mode

/-- Frames per segment L of a memory mode (09 R162). -/
def framesOf (mode : Nat) : Nat := 96 * 2 ^ mode

/-- S in force. -/
def Recorder.segments (r : Recorder) : Nat := segmentsOf r.settings.mode

/-- L in force. -/
def Recorder.frameCount (r : Recorder) : Nat := framesOf r.settings.mode

/-- The number of frozen segments (09 R163). -/
def Recorder.frozen (r : Recorder) : Nat :=
  if r.w = r.r then (if r.lastWrite then r.segments else 0) else (r.w + r.segments - r.r) % r.segments

/-- The enable of a trigger source (09 R164, 11.2: bit 0 is SLOT_OVERCURRENT, bit 4 EXTERNAL). -/
def RecSettings.enabled (v : RecSettings) : TriggerSource → Bool
  | .slotOvercurrent => v.enables.getLsbD 0
  | .slotPowerLost => v.enables.getLsbD 1
  | .railDip => v.enables.getLsbD 2
  | .host => v.enables.getLsbD 3
  | .external => v.enables.getLsbD 4

end Sys2Proof.Machine

namespace Sys2Proof

/-- Gated sources are those of slot currents, slot power-good and the rail (09 R168). -/
def TriggerSource.gated : TriggerSource → Bool
  | .slotOvercurrent | .slotPowerLost | .railDip => true
  | .host | .external => false

end Sys2Proof
end

