-- ==== Sys2Proof/Machine/Ops.lean ====
section
/-!
DEFINITION. The shared operations over the state: slot records and notices, the slot transition, the setup bus engine's
jobs, the power allowance arbiter, the cycle planner, the power-down actions and faults. Every meaning is built of these.
-/
namespace Sys2Proof.Machine

/-! ### Slots -/

/-- The slot controller of a slot. -/
def State.slot (s : State) (i : SlotId) : Slot := s.slots[i]

/-- Replace a slot controller. -/
def State.setSlot (s : State) (i : SlotId) (c : Slot) : State := { s with slots := s.slots.set i c }

/-- Change a slot controller. -/
def State.updSlot (s : State) (i : SlotId) (f : Slot → Slot) : State := s.setSlot i (f (s.slot i))

/-! ### Notices (10 R192) -/

/-- The fourteen sources of notices (10 R192). -/
inductive NoticeSource where
  | slot (i : SlotId)
  | sequencer
  | recorder
  deriving DecidableEq, Repr

/-- The source of a notice. -/
def Notice.source : Notice → NoticeSource
  | .slot i _ _ _ _ => .slot i
  | .cycle _ _ _ _ _ _ => .sequencer
  | .recorder _ _ _ _ _ => .recorder

/-- A notice replaces the waiting notice of its source in its place, or joins the tail (10 R192). -/
def placeNotice (n : Notice) : List Notice → List Notice
  | [] => [n]
  | m :: q => if m.source = n.source then n :: q else m :: placeNotice n q

/-- Post a notice. -/
def postNotice (n : Notice) (s : State) : State :=
  { s with link := { s.link with notices := placeNotice n s.link.notices } }

/-- Post a slot's notice with its record as it stands (01 R28). -/
def postSlot (i : SlotId) (s : State) : State :=
  let c := s.slot i
  postNotice (.slot i c.state c.reason c.transitions c.faultCount) s

/-- Post a cycle notice with the sequencer as it stands (08 R159). -/
def postCycle (cause : CycleCause) (s : State) : State :=
  let q := s.sequencer
  postNotice (.cycle cause q.state q.cycleCount q.earlyCount q.lostCount q.illegalCount) s

/-- Post a recorder notice with the recorder as it stands (09 R181). -/
def postRecorder (cause : RecCause) (s : State) : State :=
  let r := s.recorder
  postNotice (.recorder cause (BitVec.ofNat 8 r.state.code) r.events.length
    (r.events.getLast?.map EventRecord.sequence) r.refused) s

/-! ### The slot transition -/

/-- The standby-on time after the slot has entered a state: unset while STBY_EN is off, begun anew when it turns on
(02 R33, R48). -/
def standbyAfter (before : Standby) (st : SlotState) : Standby :=
  if st.standbyOn then (if before = .off then .settling else before) else .off

/-- The states on whose entry the screening results are made absent (01 R2). -/
def SlotState.clearsScreening : SlotState → Bool
  | .identifying | .empty | .disabled => true
  | .mating | .consentWait | .unlocking | .powerWait | .powering | .resetHold | .readyWait | .configuring | .roomWait
  | .joining | .running | .parked | .refused | .faulted | .cooldown | .barred | .removing => false

/-- The states on whose entry the consecutive overrun count is set to 0 (01 R2). -/
def SlotState.clearsOverruns : SlotState → Bool
  | .empty | .running => true
  | .identifying | .disabled | .mating | .consentWait | .unlocking | .powerWait | .powering | .resetHold | .readyWait
  | .configuring | .roomWait | .joining | .parked | .refused | .faulted | .cooldown | .barred | .removing => false

/-- Entry of a slot controller into a state: the reason is written (01 R3), the lines take their levels (R4), the
transition count rises (R28), the state timers are cancelled (R27) and the read buffer is emptied (03 R50). -/
def Slot.enter (c : Slot) (st : SlotState) (r : Reason) : Slot :=
  { c with
    state := st, reason := r, transitions := saturate 255 c.transitions, timers := StateTimers.idle, pollDue := false,
    readBuffer := [], stbyEn := st.standbyOn, mainEn := st.mainOn, cardRst := st.cardReset,
    standby := standbyAfter c.standby st,
    screening := if st.clearsScreening then Screening.absent else c.screening,
    overruns := if st.clearsOverruns then 0 else c.overruns }

/-- A slot reports a transition into or out of the bring-up group to the recorder (09 R170). -/
def reportGate (i : SlotId) (old new : SlotState) (s : State) : State :=
  if old.inBringUp = new.inBringUp then s
  else { s with recorder := { s.recorder with
    gateReports := s.recorder.gateReports ++ [{ slot := i, entering := new.inBringUp }] } }

/-- One transition of a slot: entry, gate report and notice. -/
def transition (i : SlotId) (st : SlotState) (r : Reason) (s : State) : State :=
  postSlot i (reportGate i (s.slot i).state st (s.updSlot i fun c => c.enter st r))

/-- A change of reason code alone: written and noticed, without a transition (01 R3, R28). -/
def writeReason (i : SlotId) (r : Reason) (s : State) : State :=
  postSlot i (s.updSlot i fun c => { c with reason := r })

/-! ### Setup bus engine (02) -/

/-- An idle engine takes the oldest job as the job in progress, held while the slot's standby settles (02 R33, R41). -/
def startJob (s : State) : State :=
  match s.engine.current, s.engine.queue with
  | none, j :: q =>
    { s with engine := { s.engine with
      queue := q
      current := some { job := j, held := decide ((s.slot j.slot).standby = .settling), nextByte := 0, received := [],
                        abort := false, cutBytes := [] } } }
  | _, _ => s

/-- Whether the job in progress belongs to a slot. -/
def Engine.busyWith (e : Engine) (i : SlotId) : Bool := e.current.any fun cur => decide (cur.job.slot = i)

/-- Whether a slot has a job queued, in progress or deferred. -/
def Engine.hasJob (e : Engine) (i : SlotId) : Bool :=
  e.busyWith i || e.queue.any (fun j => decide (j.slot = i)) || e.deferred.any fun j => decide (j.slot = i)

/-- Jobs without those of a slot. -/
def jobsWithout (i : SlotId) (jobs : List Job) : List Job := jobs.filter fun j => decide (j.slot ≠ i)

/-- A slot controller issues a job: to the queue's tail (02 R40, R41), or deferred while the slot's previous job is still
being aborted (R46). -/
def issueJob (i : SlotId) (t : Transaction) (s : State) : State :=
  if s.engine.busyWith i then
    { s with engine := { s.engine with
      deferred := jobsWithout i s.engine.deferred ++ [{ slot := i, transaction := t }] } }
  else
    startJob { s with engine := { s.engine with queue := s.engine.queue ++ [{ slot := i, transaction := t }] } }

/-- Send a completion to a slot controller, which takes it in its own event (02 R42). -/
def sendCompletion (i : SlotId) (c : Completion) (s : State) : State :=
  s.updSlot i fun x => { x with inbox := { x.inbox with completions := x.inbox.completions ++ [c] } }

/-- The job in progress ends: its completion is sent, the pair released, the slot's deferred job joins the tail (02 R46)
and the next job is taken (R42). -/
def endJob (cur : CurrentJob) (outcome : JobOutcome) (data : List Byte) (words : Nat) (index : Option Nat)
    (s : State) : State :=
  let i := cur.job.slot
  let sent := sendCompletion i
    { kind := cur.job.transaction.kind, outcome := outcome, data := data, words := words, byteIndex := index } s
  startJob { sent with engine := { sent.engine with
    queue := sent.engine.queue ++ sent.engine.deferred.filter fun j => decide (j.slot = i)
    current := none
    deferred := jobsWithout i sent.engine.deferred } }

/-- The abort of the job in progress, if it is the slot's: the mark is set, or a job held for settle completes ABORTED at
once (02 R44). -/
def abortJob (i : SlotId) (s : State) : State :=
  match s.engine.current with
  | some cur =>
    if cur.job.slot = i then
      if cur.held then endJob cur .aborted [] 0 (some 0) s
      else { s with engine := { s.engine with current := some (cur.requestAbort s.sets) } }
    else s
  | none => s

/-- A slot's dealings with the engine are withdrawn: queued and deferred jobs go (02 R43), the job in progress is
aborted (R44), and a completion already sent is one the slot no longer waits on (01 R14, log 14). -/
def withdrawJob (i : SlotId) (s : State) : State :=
  let cleared := s.updSlot i fun x => { x with inbox := { x.inbox with completions := [] } }
  abortJob i { cleared with engine := { cleared.engine with
    queue := jobsWithout i cleared.engine.queue
    deferred := jobsWithout i cleared.engine.deferred } }

/-! ### Power allowance arbiter (05) -/

/-- The grant of the head of the power queue; the slot enters POWERING in the same event (05 R93, R95). -/
def grantPower (e : PowerEntry) (rest : List PowerEntry) (s : State) : State :=
  let granted := transition e.slot .powering .none
    { s with arbiter := { s.arbiter with
      committed := s.arbiter.committed + e.power, ramping := s.arbiter.ramping + 1, queue := rest } }
  granted.updSlot e.slot fun c =>
    { c with grant := true, overCurrentRun := 0, pgGoodRun := 0, pgLostRun := 0,
             timers := { c.timers with ramp := some s.times.rampLimit } }

/-- Heads are granted while the budget and the ramp limit allow; a head that fails stops the examination (05 R92). -/
def examineFrom : List PowerEntry → State → State
  | [], s => s
  | e :: rest, s =>
    if s.arbiter.committed + e.power ≤ s.arbiter.budget ∧ s.arbiter.ramping < s.arbiter.rampLimit then
      examineFrom rest (grantPower e rest s)
    else s

/-- The arbiter examines the head of the power queue (05 R92). -/
def examine (s : State) : State := examineFrom s.arbiter.queue s

/-- A grant is released: the power uncommitted, and the ramp share given back in POWERING (05 R93). -/
def releaseGrant (i : SlotId) (s : State) : State :=
  let c := s.slot i
  if c.grant then
    { s.updSlot i (fun x => { x with grant := false }) with
      arbiter := { s.arbiter with
        committed := s.arbiter.committed - c.power
        ramping := if c.state = .powering then s.arbiter.ramping - 1 else s.arbiter.ramping } }
  else s

/-- Whether a slot stands in the power queue. -/
def Arbiter.queues (a : Arbiter) (i : SlotId) : Bool := a.queue.any fun e => decide (e.slot = i)

/-- A slot leaves the power queue from any position (05 R90). -/
def leavePowerQueue (i : SlotId) (s : State) : State :=
  { s with arbiter := { s.arbiter with queue := s.arbiter.queue.filter fun e => decide (e.slot ≠ i) } }

/-- Entry to POWER_WAIT with the budget check, and the examination that follows the join (05 R91). -/
def toPowerWait (i : SlotId) (s : State) : State :=
  let p := (s.slot i).power
  if s.arbiter.budget < p then transition i .refused .powerRange s
  else
    let joined := transition i .powerWait .none s
    examine { joined with arbiter := { joined.arbiter with
      queue := joined.arbiter.queue ++ [{ slot := i, power := p }] } }

/-! ### Cycle planner (08) -/

/-- The end of a plan, laid end to end from tick 50; a plan without windows has none and is reported as 0 (08 R141,
R157). -/
def planEnd (plan : List PlanWindow) : Nat :=
  if plan.isEmpty then 0 else plan.foldl (fun t w => t + w.window.length) Config.leadGap

/-- The plan limit of cycle settings; OFF mode has none (08 R141). -/
def planLimit (v : CycleSettings) : Option Nat :=
  match v.mode with
  | .off => none
  | .master => some (v.length - Config.planReserve)
  | .follower => some (v.length - v.tolerance - Config.planReserve)

/-- Whether a plan fits cycle settings (08 R139, R141). -/
def planFits (v : CycleSettings) (plan : List PlanWindow) : Bool :=
  match planLimit v with
  | some limit => plan.isEmpty || decide (planEnd plan ≤ limit)
  | none => true

/-- Plan order: ascending rank, and slot number between equal ranks (08 R141). -/
def PlanWindow.precedes (v w : PlanWindow) : Bool :=
  decide (v.rank < w.rank) || (decide (v.rank = w.rank) && decide (v.slot < w.slot))

/-- A window at its rank position. -/
def placeWindow (w : PlanWindow) : List PlanWindow → List PlanWindow
  | [] => [w]
  | v :: plan => if w.precedes v then w :: v :: plan else v :: placeWindow w plan

/-- The pending plan with a slot's window placed, if it can be placed and fits (08 R142). -/
def tryPlace (i : SlotId) (s : State) : Option (List PlanWindow) :=
  match s.planner.settings.mode, (s.slot i).screening.rank, (s.slot i).screening.window with
  | .off, _, _ => none
  | _, some rank, some window =>
    let plan := placeWindow { slot := i, rank := rank, window := window } s.planner.plan
    if planFits s.planner.settings plan then some plan else none
  | _, _, _ => none

/-- A slot's window enters the pending plan and the slot JOINING (08 R142). -/
def joinPlan (i : SlotId) (plan : List PlanWindow) (s : State) : State :=
  transition i .joining .none { s with planner := { s.planner with plan := plan } }

/-- Insertion: JOINING when the window fits, else ROOM_WAIT at the room queue's tail (08 R142). -/
def insertWindow (i : SlotId) (s : State) : State :=
  match tryPlace i s with
  | some plan => joinPlan i plan s
  | none => transition i .roomWait .noRoom { s with planner := { s.planner with room := s.planner.room ++ [i] } }

/-- A slot leaves the room queue from any position (08 R143). -/
def leaveRoom (i : SlotId) (s : State) : State :=
  { s with planner := { s.planner with room := s.planner.room.filter fun j => decide (j ≠ i) } }

/-- The walk over the room queue from the oldest to the youngest, each slot visited once (08 R144). -/
def walkFrom : List SlotId → State → State
  | [], s => s
  | i :: rest, s =>
    match tryPlace i s with
    | some plan => walkFrom rest (joinPlan i plan (leaveRoom i s))
    | none => walkFrom rest s

/-- A walk of the room queue (08 R144). -/
def walkRoom (s : State) : State := walkFrom s.planner.room s

/-- Whether a slot's window stands in the pending plan. -/
def Planner.plans (p : Planner) (i : SlotId) : Bool := p.plan.any fun w => decide (w.slot = i)

/-- A slot's window leaves the pending plan; those behind it move earlier (08 R145). -/
def withdrawWindow (i : SlotId) (s : State) : State :=
  { s with planner := { s.planner with plan := s.planner.plan.filter fun w => decide (w.slot ≠ i) } }

/-- A slot's window in the active plan is muted, and cut at once if it is in progress (08 R148). -/
def muteWindow (i : SlotId) (s : State) : State :=
  { s with sequencer := { s.sequencer with
    active := s.sequencer.active.map fun w => if w.slot = i then { w with muted := true } else w
    run := s.sequencer.run.filter fun run => decide (run.slot ≠ i) } }

/-! ### Power-down actions (01 R9) -/

/-- The end of a transfer: the record takes the words written and the residual, and the pin is released (06 R108,
R115 to R118). A slot without a pin has no transfer. -/
def endTransfer (i : SlotId) (written : Nat) (s : State) : State :=
  match (s.slot i).pin with
  | none => s
  | some n =>
    { s.updSlot i (fun c => { c with wordsWritten := written, residual := s.sets[n].length - written, pin := none }) with
      sets := s.sets.set n { s.sets[n] with pins := s.sets[n].pins - 1 } }

/-- A transfer under way is cut at its transfer count (06 R118). -/
def cutTransfer (i : SlotId) (s : State) : State := endTransfer i (s.slot i).transferCount s

/-- What the slot controller itself drops: its overload threshold (05 R88), and reports and outcomes about the window it
no longer has (01 R14, log 14). -/
def dropChecks (i : SlotId) (s : State) : State :=
  s.updSlot i fun c => { c with threshold := none, inbox := { c.inbox with adoptionReports := 0, outcomes := [] } }

/-- The power-down actions of 01 R9 but for the lines and timers, which the transition that always follows sets. -/
def powerDown (i : SlotId) (s : State) : State :=
  dropChecks i (cutTransfer i (withdrawJob i (leavePowerQueue i (releaseGrant i (leaveRoom i
    (withdrawWindow i (muteWindow i s)))))))

/-- What other blocks do in the event of a power-down: the planner walks its room queue when a window left the pending
plan (08 R145), the arbiter examines its queue when a grant was released or a slot left the queue (05 R92). -/
def followOn (i : SlotId) (before after : State) : State :=
  let walked := if before.planner.plans i then walkRoom after else after
  if (before.slot i).grant || before.arbiter.queues i then examine walked else walked

/-- A transition with the power-down actions. -/
def powerOff (i : SlotId) (st : SlotState) (r : Reason) (s : State) : State :=
  followOn i s (transition i st r (powerDown i s))

/-! ### Entries of states -/

/-- Entry to IDENTIFYING: results absent and STBY_EN on (by the transition), a queued job withdrawn, the header read
issued (01 R7, 03 R50). -/
def toIdentifying (i : SlotId) (r : Reason) (s : State) : State :=
  issueJob i (.identRead 0 8) (withdrawJob i (transition i .identifying r s))

/-- The state the contacts call for (01 R8). -/
def contactState (c : Slot) : SlotState :=
  if c.allowance = 0 then .barred
  else if !c.early then .empty
  else if !c.late then .mating
  else .identifying

/-- A slot goes to the state its contacts call for, with reason NONE (01 R8). -/
def toContactState (i : SlotId) (s : State) : State :=
  if contactState (s.slot i) = .identifying then toIdentifying i .none s
  else transition i (contactState (s.slot i)) .none s

/-- Removal: power-down, LATE open with its debounce cancelled, to REMOVING (01 R5, R10). -/
def removeCard (i : SlotId) (s : State) : State :=
  powerOff i .removing .lateBreak (s.updSlot i fun c => { c with late := false, debounceLate := none })

/-- A fault: power-down, fault count, reason, retry decision (01 R15, R16). -/
def takeFault (i : SlotId) (code : Reason) (s : State) : State :=
  let counted := s.updSlot i fun c => { c with faultCount := saturate 255 c.faultCount }
  if code.retryable && decide ((counted.slot i).faultCount ≤ s.times.retryLimit) then
    (powerOff i .cooldown code counted).updSlot i fun c =>
      { c with timers := { c.timers with cooldown := some s.times.cooldown } }
  else powerOff i .faulted code counted

/-- Entry to CONSENT_WAIT with its timer (03 R65). -/
def toConsentWait (i : SlotId) (s : State) : State :=
  (transition i .consentWait .none s).updSlot i fun c =>
    { c with timers := { c.timers with consent := some s.times.consentTimeout } }

/-- Entry to UNLOCKING: walk and offers cleared, the status check issued (04 R73). -/
def toUnlocking (i : SlotId) (s : State) : State :=
  issueJob i .statusRead ((transition i .unlocking .none s).updSlot i fun c => { c with walkPos := 0, offers := 0 })

/-- Whether the card of a slot demands a key (03 R63 question 7, R66). -/
def Slot.demandsKey (c : Slot) : Bool := (c.screening.identity.map identLocked).getD false

/-- An admitted card goes to UNLOCKING if it demands a key, else to POWER_WAIT (03 R63, R66). -/
def admitCard (i : SlotId) (s : State) : State :=
  if (s.slot i).demandsKey then toUnlocking i s else toPowerWait i s

/-- The status poll of READY_WAIT: a STATUS_READ and the next 5 ms interval (05 R102). -/
def pollStatus (i : SlotId) (s : State) : State :=
  issueJob i .statusRead (s.updSlot i fun c =>
    { c with pollDue := false, timers := { c.timers with poll := some Config.pollInterval } })

/-- A trigger condition on its way to the recorder (09 R168). -/
def presentTrigger (t : Trigger) (s : State) : State :=
  { s with recorder := { s.recorder with triggers := s.recorder.triggers ++ [t] } }

/-- A slot's bit of the recorder's pattern latch is set (05 R84, 09 R176). -/
def setPattern (i : SlotId) (s : State) : State :=
  { s with recorder := { s.recorder with pattern := s.recorder.pattern ||| BitVec.twoPow 12 i.val } }

/-! ### Configuration transfer (06) -/

/-- The slot's config area and config block; 0 when no identity is present. -/
def Slot.configArea (c : Slot) : Nat := (c.screening.identity.map identArea).getD 0
def Slot.configBlock (c : Slot) : Nat := (c.screening.identity.map identBlock).getD 0

/-- The next job of a transfer: the next block, or the COMMIT when every word is written (06 R114). -/
def nextBlock (i : SlotId) (n : Fin 8) (s : State) : State :=
  let count := (s.slot i).transferCount
  let length := s.sets[n].length
  if count < length then issueJob i (.blockWrite n count (min (s.slot i).configBlock (length - count))) s
  else issueJob i (.commit length) s

/-- The slot pins a READY set that fits and starts its transfer (06 R113). -/
def startTransfer (i : SlotId) (n : Fin 8) (s : State) : State :=
  let pinned :=
    { s.updSlot i (fun c => { c with pin := some n, transferCount := 0 }) with
      sets := s.sets.set n { s.sets[n] with pins := s.sets[n].pins + 1 } }
  let noticed := if (s.slot i).reason = .paramsWait then writeReason i .none pinned else pinned
  nextBlock i n noticed

/-- The examination of the named set, on entry to CONFIGURING and at an announcement (06 R113). -/
def examineSet (i : SlotId) (n : Fin 8) (s : State) : State :=
  if s.sets[n].state = .ready then
    if (s.slot i).configArea < s.sets[n].length then takeFault i .configTooLarge s
    else startTransfer i n s
  else if (s.slot i).reason = .paramsWait then s
  else writeReason i .paramsWait s

end Sys2Proof.Machine
end

