-- ==== Sys2Proof/Machine/Replies.lean ====
section
/-!
DEFINITION. The byte layouts of what the port sends (11): the answers of commands and the payloads of notices. A layout
that chapter 11 does not draw follows the conventions of 11 R197, each flag as one byte (log 20).
-/
namespace Sys2Proof.Machine

/-- A block's answer to a command: the status and the data that follow it in the reply (10 R189). -/
structure Answer where
  status : Status
  data : List Byte
  deriving DecidableEq, Repr

/-- An OK answer. -/
def okAnswer (data : List Byte) : Answer := { status := .ok, data := data }

/-- An answer of the status byte alone. -/
def bareAnswer (status : Status) : Answer := { status := status, data := [] }

/-- The 35 bytes of a window descriptor (11.5). -/
def descriptorBytes (d : Descriptor) : List Byte :=
  u8 d.width ++ u8 d.burst ++ u16 d.outTransfers ++ u16 d.inTransfers ++ u8 d.setupCode ++ u8 d.strobeCode ++
    u8 d.holdCode ++ u16 d.setupQ ++ u16 d.strobeQ ++ u16 d.holdQ ++ u16 d.fullAccess ++ u16 d.shortAccess ++
    u16 d.outFull ++ u16 d.outShort ++ u16 d.inFull ++ u16 d.inShort ++ u16 d.stretch ++ u16 d.gap ++ u32 d.length

/-- One bit of a byte. -/
def bitValue (b : Bool) (weight : Nat) : Nat := if b then weight else 0

/-- The 124 bytes of a slot record (11.5); the clamp flags are clear when the descriptor is absent (01 R1). -/
def slotStatusBytes (i : SlotId) (c : Slot) : List Byte :=
  let r := c.screening
  let shown := r.window.isSome
  u8 i.val ++ u8 c.state.code ++ u8 c.reason.code ++ u8 (bitValue c.early 1 + bitValue c.late 2) ++
    u8 c.allowance ++ u8 c.faultCount ++ u8 c.overruns ++ u8 c.transitions ++
    u8 (bitValue c.grant 1 + bitValue (shown && r.clamps.stretchClamped) 2 +
      bitValue (shown && r.clamps.strobeRaised) 4 + bitValue (shown && r.clamps.accessRaised) 8) ++
    u16 c.wordsWritten ++ u16 c.residual ++ optional u16 c.traceRef ++ optional u8 (r.matched.map Fin.val) ++
    optional u8 r.rank ++ optional u8 (r.paramSet.map Fin.val) ++
    (match r.window with
     | some d => flagByte true :: descriptorBytes d
     | none => flagByte false :: List.replicate 35 0) ++
    (match r.identity with
     | some ident => flagByte true :: u8 ident.length ++ padTo 64 ident
     | none => flagByte false :: List.replicate 65 0)

/-- The seven slot timer settings in the widths of their command. -/
def slotTimesBytes (v : SlotTimes) : List Byte :=
  u16 v.debounce ++ u16 v.rampLimit ++ u16 v.resetHold ++ u16 v.readyTimeout ++ u16 v.consentTimeout ++
    u16 v.cooldown ++ u16 v.retryLimit

/-- The six power and monitor settings in the widths of their command. -/
def powerBytes (s : State) : List Byte :=
  u16 s.arbiter.budget ++ u16 s.arbiter.rampLimit ++ u16 s.monitor.margin ++ u16 s.monitor.inrush ++
    u16 s.monitor.filter ++ u16 s.monitor.railDip

/-- The planning settings, the settings in force and the sequencer state (08 R139). -/
def cycleBytes (s : State) : List Byte :=
  u8 s.planner.settings.mode.code ++ u32 s.planner.settings.length ++ u16 s.planner.settings.tolerance ++
    u32 s.sequencer.length ++ u16 s.sequencer.tolerance ++ u8 s.sequencer.state.code

/-- A policy entry as stored; FFh for no parameter set (03 R58, 11 R197). -/
def policyEntryBytes (e : PolicyEntry) : List Byte :=
  u8 e.kind.code ++ u32 e.pattern.toNat ++ u32 e.mask.toNat ++ u8 e.action.code ++ u8 e.rank ++
    (match e.set with
     | some n => u8 n.val
     | none => [0xFF])

/-- The four loaded flags (04 R72), key slot 0 first; the manual names no order (DESIGN CHOICE, log 20). -/
def loadedBytes (keys : Vector KeySlot 4) : List Byte := keys.toList.map fun k => flagByte k.loaded

/-- A set's state, declared length, written count and pin count (06 R109). -/
def paramBytes (p : ParamSet) : List Byte := u8 p.state.code ++ u16 p.length ++ u16 p.written ++ u8 p.pins

/-- The end of the active plan; 0 when it holds no window (08 R157). -/
def activeEnd (active : List ActiveWindow) : Nat :=
  match active.getLast? with
  | some w => w.start + w.window.length
  | none => 0

/-- The plan header of PLAN_READ (08 R157). -/
def planHeaderBytes (s : State) : List Byte :=
  u8 s.planner.settings.mode.code ++ u8 s.sequencer.state.code ++ u32 s.sequencer.length ++
    u16 s.sequencer.tolerance ++ u8 s.sequencer.active.length ++ u32 (activeEnd s.sequencer.active)

/-- The 46-byte window item of PLAN_READ (11 R198). -/
def windowBytes (w : ActiveWindow) : List Byte :=
  u8 w.slot.val ++ u8 w.rank ++ u32 w.start ++ u32 (w.start + w.window.length) ++ [flagByte w.muted] ++
    descriptorBytes w.window

/-- The data of CYCLE_STATUS, item by item (08 R158). -/
def cycleStatusBytes (s : State) : List Byte :=
  let q := s.sequencer
  cycleBytes s ++ u32 q.cycleCount.toNat ++ u16 q.earlyCount ++ u16 q.lostCount ++ u16 q.illegalCount ++
    u8 q.active.length ++ u8 (q.active.filter fun w => w.muted).length ++ u32 (activeEnd q.active) ++
    u8 s.planner.plan.length ++ u32 (planEnd s.planner.plan) ++ s.planner.room.flatMap fun i => u8 i.val

/-- The recorder settings in the widths of REC_SET. -/
def recSettingsBytes (v : RecSettings) : List Byte :=
  u8 v.mode ++ u16 v.pre ++ u16 v.overlap ++ u8 v.decimation ++ u16 v.gateTail ++ u8 v.enables.toNat ++
    [flagByte v.traceOut]

/-- The capture phase: inhibit 0 while the remaining count is above O, else overlap 1 (09 R171, 11.3). -/
def phaseCode (v : RecSettings) (c : Capture) : Nat := if v.overlap < c.remaining then 0 else 1

/-- The capture under way, if any. -/
def RecState.capture? : RecState → Option Capture
  | .capturing c => some c
  | .stopped | .fillingPre | .ready | .full => none

/-- The data of REC_STATUS, item by item (09 R178); phase, remaining count and overlap-pending may be absent. The two
latches go HOST first, then EXTERNAL (log 20, the model's choice). -/
def recStatusBytes (r : Recorder) : List Byte :=
  u8 r.state.code ++ optional u8 (r.state.capture?.map (phaseCode r.settings)) ++ recSettingsBytes r.settings ++
    u8 r.w ++ u8 r.r ++ [flagByte r.lastWrite] ++ u8 r.frozen ++ u16 r.writePos ++ u16 r.written ++
    optional u16 (r.state.capture?.map Capture.remaining) ++
    optional u8 (r.overlap.map fun t => t.source.code) ++ optional u8 ((r.overlap.bind Trigger.slot).map Fin.val) ++
    [flagByte (r.latches.contains .host), flagByte (r.latches.contains .external)] ++ u16 r.pattern.toNat ++
    [flagByte r.gateOpen] ++ u8 r.refused ++ u16 r.sequence

/-- The 24 bytes of an event record (11.6). -/
def eventBytes (e : EventRecord) : List Byte :=
  u16 e.sequence ++ u8 e.segment ++ u16 e.stop ++ u16 e.triggerIndex ++ u16 e.pre ++ u8 e.source.source.code ++
    optional u8 (e.source.slot.map Fin.val) ++ u16 e.pattern.toNat ++ u32 e.time.toNat ++ u32 e.cycle.toNat ++
    [flagByte e.gateOpen] ++ u8 e.refused

/-- The 28 bytes of a stored frame (11.6). -/
def storedFrameBytes (f : MonitorSample) : List Byte :=
  (f.currents.toList.flatMap fun code => u16 code.toNat) ++ u16 f.rail.toNat ++ u16 f.pg.toNat

/-- The data of PART_STATUS, item by item (10 R193). -/
def partStatusBytes (s : State) : List Byte :=
  u16 s.link.checkFailures ++ u16 s.link.gapAborts ++ u16 s.link.overruns ++ u8 s.link.rate.code ++
    u8 s.sequencer.state.code ++ u8 s.recorder.state.code ++ u16 s.arbiter.committed ++ u8 s.arbiter.ramping

/-- The KIND of a notice (10 R192). -/
def Notice.kind : Notice → Byte
  | .slot _ _ _ _ _ => 0xE1
  | .cycle _ _ _ _ _ _ => 0xE2
  | .recorder _ _ _ _ _ => 0xE3

/-- The payload of a notice (11.2). -/
def Notice.payload : Notice → List Byte
  | .slot i st r transitions faults => u8 i.val ++ u8 st.code ++ u8 r.code ++ u8 transitions ++ u8 faults
  | .cycle cause st count early lost illegal =>
    u8 cause.code ++ u8 st.code ++ u32 count.toNat ++ u16 early ++ u16 lost ++ u16 illegal
  | .recorder cause stateCode records newest refused =>
    u8 cause.code ++ [stateCode] ++ u8 records ++ optional u16 newest ++ u8 refused

/-- The frame of a reply (10 R189). -/
def Reply.frame (r : Reply) : List Byte := frameBytes r.kind r.tag r.payload

/-- The frame of a notice, with TAG 0 (10 R192). -/
def Notice.frame (n : Notice) : List Byte := frameBytes n.kind 0 n.payload

end Sys2Proof.Machine
end

