-- ==== Sys2Proof/Machine/LinkOps.lean ====
section
/-!
DEFINITION. Taking a command at the service link port: the judgment against the reply queue, the reply, the
transmitter's choice, and the state in which the part is held in reset (10 R188 to R191, R194).
-/
namespace Sys2Proof.Machine

/-- A command's own effect, when the part is not held in reset; in reset nothing but the reset itself and the contact
pins acts (log 5). -/
def whenLive (f : State → State) (s : State) : Host.Outcome State Fault Refusal :=
  .next (if s.inReset then s else f s)

/-- A reply joins the reply queue's tail, its KIND the command's with the top bit set (10 R189, R190). -/
def queueReply (kind tag : Byte) (a : Answer) (s : State) : State :=
  { s with link := { s.link with
    replies := s.link.replies ++ [{ kind := kind ||| 0x80, tag := tag, payload := a.status.code :: a.data }] } }

/-- The notice of a slot is taken for sending: its transition count becomes 0 (01 R28, 10 R192). -/
def noticeTaken (n : Notice) (s : State) : State :=
  match n.source with
  | .slot i => s.updSlot i fun c => { c with transitions := 0 }
  | .sequencer | .recorder => s

/-- The transmitter's choice (10 R191), made at the end of every event that queues a reply, posts a notice or frees the
transmitter (log 10): an idle transmitter begins the oldest unsent reply, or else removes the oldest notice and begins
it. -/
def transmit (s : State) : State :=
  match s.link.tx, s.link.replies, s.link.notices with
  | some _, _, _ => s
  | none, r :: _, _ => { s with link := { s.link with tx := some (.reply r.frame) } }
  | none, [], n :: rest =>
    noticeTaken n { s with link := { s.link with notices := rest, tx := some (.notice n.frame) } }
  | none, [], [] => s

/-- A valid frame ends: discarded during the restart wait (10 R194), an overrun when the reply queue is full (R190),
else taken, its effect complete, its reply queued and the transmitter's choice made in the same event (R188, R191). -/
def takeCommand (kind tag : Byte) (act : State → State × Answer) (s : State) : State :=
  if s.link.restartWait then s
  else if Config.replyPlaces ≤ s.link.replies.length then
    { s with link := { s.link with overruns := saturate 65535 s.link.overruns } }
  else transmit (queueReply kind tag (act s).2 (act s).1)

/-- A refused command: nothing changes, and the reply is the status byte alone. -/
def refuseWith (status : Status) (s : State) : State × Answer := (s, bareAnswer status)

/-- A slot command: a slot number above 11 is answered BAD_ARGUMENT (01 R19). -/
def onSlot (slot : Byte) (act : SlotId → State → State × Answer) (s : State) : State × Answer :=
  match slotArg slot with
  | some i => act i s
  | none => refuseWith .badArgument s

end Sys2Proof.Machine
end

