-- ==== Sys2Proof/Machine/EngineEvents.lean ====
section
/-!
DEFINITION. The events of the setup bus engine and of the monitor (02 R33, R39, R42 to R44, 05 R83, R100).
-/
namespace Sys2Proof.Machine

/-- A held job of a slot opens its transaction (02 R33). -/
def openHeld (i : SlotId) (e : Engine) : Engine :=
  { e with current := e.current.map fun cur => if cur.job.slot = i then { cur with held := false } else cur }

/-- The 2 ms standby settle time of a slot ends; a job held for it opens (02 R33, log 16). -/
def expireSettle (i : SlotId) (s : State) : State :=
  if (s.slot i).standby = .settling then
    { s.updSlot i (fun c => { c with standby := .settled }) with engine := openHeld i s.engine }
  else s

def execSettleExpiry (i : SlotId) (s : State) : Host.Outcome State Fault Refusal := whenLive (expireSettle i) s

/-- The outcome of a transaction whose bytes have all passed, none for a bad answer byte (02 R34 to R39). -/
def finishedOutcome (t : Transaction) (data : List Byte) : Option JobOutcome :=
  match t with
  | .identRead _ _ | .statusRead | .blockWrite _ _ _ => some .done
  | .unlock _ _ =>
    if byteAt data 0 = 0x3C then some .granted else if byteAt data 0 = 0xC3 then some .denied else none
  | .commit _ =>
    if byteAt data 0 = 0x5A then some .accepted else if byteAt data 0 = 0xA5 then some .rejected else none

/-- The data a completion returns: the bytes read, never an answer byte's or a key's (02 R34 to R38). -/
def returnedData (t : Transaction) (data : List Byte) : List Byte :=
  match t with
  | .identRead _ _ | .statusRead => data
  | .unlock _ _ | .blockWrite _ _ _ | .commit _ => []

/-- The bytes transferred when a transaction ended in a way, counted from the command byte. -/
def transferredBytes (cur : CurrentJob) : BusEnd → Nat
  | .finished data => cur.job.transaction.sentLength + cur.received.length + data.length
  | .nak index => cur.nextByte + index
  | .boundary bytes _ => cur.nextByte + bytes

/-- The bytes of a transaction that has come to an end, with their acknowledge bits: the engine accepts what the card
sends but a bad answer byte, and the card what it is sent but the byte it refuses (02 R31, R39). -/
def endSymbols (sets : Vector ParamSet 8) (cur : CurrentJob) : BusEnd → List BusSymbol
  | .finished data =>
    let t := cur.job.transaction
    let whole := cur.received ++ data
    let bad := (finishedOutcome t whole).isNone
    acceptedSymbols (cur.sends sets) ++ whole.flatMap (byteSymbols bad)
  | .nak index =>
    acceptedSymbols (cur.passed sets index []) ++
      ((cur.sends sets)[cur.nextByte + index]?.map (byteSymbols true)).getD []
  | .boundary bytes data => acceptedSymbols (cur.passed sets bytes data)

/-- A transaction passes whole on its pair, from its start condition to its stop condition (02 R31). -/
def passOnPair (cur : CurrentJob) (bytes : List BusSymbol) (s : State) : State :=
  { s with engine := { s.engine with
    ended := some { slot := cur.job.slot, symbols := .start :: bytes ++ [.stop] } } }

/-- A byte boundary short of the transaction's end: the engine goes on with the next byte (02 R41). -/
def reachBoundary (cur : CurrentJob) (bytes : Nat) (data : List Byte) (s : State) : State :=
  { s with engine := { s.engine with
    current := some { cur with nextByte := cur.nextByte + bytes, received := cur.received ++ data } } }

/-- The open transaction of the job in progress ends (02 R39, R42, R44): ABORTED whatever the byte's own result when an
abort was requested; else by what the card did. A byte boundary ends nothing without an abort request, and an end that is
none of the transaction's changes nothing (log 4). -/
def completeJob (how : BusEnd) (s : State) : State :=
  match s.engine.current with
  | none => s
  | some cur =>
    let t := cur.job.transaction
    let passed := passOnPair cur (endSymbols s.sets cur how) s
    if cur.held || !cur.fits how then s
    else if cur.abort then endJob cur .aborted [] 0 (some (transferredBytes cur how)) passed
    else
      match how with
      | .finished data =>
        let whole := cur.received ++ data
        match finishedOutcome t whole with
        | some outcome => endJob cur outcome (returnedData t whole) t.wordCount none passed
        | none => endJob cur .cardNak [] 0 (some t.sentLength) passed
      | .nak index => endJob cur .cardNak [] 0 (some (cur.nextByte + index)) passed
      | .boundary bytes data => reachBoundary cur bytes data s

def execJobComplete (how : BusEnd) (s : State) : Host.Outcome State Fault Refusal := whenLive (completeJob how) s

/-- A byte is not completed within 10 ms: BUS_TIMEOUT, or ABORTED under an abort request (02 R39, R44). The stop follows
the bytes that passed; how far the byte's own bits came is the card's (log 17). The stop is recorded whole, though the card
may hold SB_CLK low and keep the lines from it (DESIGN CHOICE, log 39). -/
def timeOutByte (late : LateByte) (s : State) : State :=
  match s.engine.current with
  | none => s
  | some cur =>
    let outcome := if cur.abort then .aborted else .busTimeout
    if cur.held || !cur.reaches late.index late.data then s
    else endJob cur outcome [] 0 (some (cur.nextByte + late.index))
      (passOnPair cur (acceptedSymbols (cur.passed s.sets late.index late.data)) s)

def execBusTimeout (late : LateByte) (s : State) : Host.Outcome State Fault Refusal := whenLive (timeOutByte late) s

/-- A monitor frame is formed and handed to the twelve slot controllers and the recorder (05 R83). -/
def handFrame (f : MonitorFrame) (s : State) : State :=
  { s with
    slots := s.slots.map fun c => { c with inbox := { c.inbox with frames := c.inbox.frames ++ [f] } }
    recorder := { s.recorder with frames := s.recorder.frames ++ [f] } }

/-- The monitor samples: the time tag is the time-stamp counter, 10 µs on from the frame before (log 6), and a rail below
the dip threshold presents RAIL_DIP (05 R83, R100). -/
def sampleFrame (sample : MonitorSample) (s : State) : State :=
  let now := s.monitor.timeStamp + BitVec.ofNat 32 Config.framePeriod
  let handed := handFrame { time := now, sample := sample } { s with monitor := { s.monitor with timeStamp := now } }
  if sample.rail.toNat < s.monitor.railDip then presentTrigger { source := .railDip, slot := none } handed else handed

def execMonitorFrame (sample : MonitorSample) (s : State) : Host.Outcome State Fault Refusal :=
  whenLive (sampleFrame sample) s

end Sys2Proof.Machine
end

