-- ==== Sys2Proof/Machine/SequencerOps.lean ====
section
/-!
DEFINITION. The cycle sequencer's own operations (08): laying out a plan, the cycle start with adoption, and the run of
a window through its accesses.
-/
namespace Sys2Proof.Machine

/-- The windows of a plan with their start ticks, laid end to end from a tick on (08 R141). -/
def layOut (start : Nat) : List PlanWindow → List ActiveWindow
  | [] => []
  | w :: plan =>
    { slot := w.slot, rank := w.rank, start := start, window := w.window, muted := false } ::
      layOut (start + w.window.length) plan

/-- Whether the pending and the active plan differ: other slots, another order, other starts, or a muted window
(08 R146). -/
def plansDiffer (new active : List ActiveWindow) : Bool :=
  decide (new.map (fun w => (w.slot, w.start)) ≠ active.map fun w => (w.slot, w.start)) ||
    active.any fun w => w.muted

/-- Whether a slot's window runs in a plan: present and not muted. -/
def runsIn (active : List ActiveWindow) (i : SlotId) : Bool := active.any fun w => decide (w.slot = i) && !w.muted

/-- The adoption is reported to the slots of the new plan that were not in the old one, or were in it muted (08 R146). -/
def reportAdoption (old : List ActiveWindow) : List ActiveWindow → State → State
  | [], s => s
  | w :: new, s =>
    reportAdoption old new
      (if runsIn old w.slot then s
       else s.updSlot w.slot fun c => { c with inbox := { c.inbox with
         adoptionReports := c.inbox.adoptionReports + 1 } })

/-- Adoption of the pending plan, if it differs from the active plan (08 R146). -/
def adoptPlan (s : State) : State :=
  let new := layOut Config.leadGap s.planner.plan
  if plansDiffer new s.sequencer.active then
    reportAdoption s.sequencer.active new { s with sequencer := { s.sequencer with active := new } }
  else s

/-- A cycle start: the count advances, waiting settings come into force, the pending plan is adopted if it differs, and
the new cycle's windows begin with the first; what was left of the old cycle is dropped (08 R146, R153). -/
def startCycle (s : State) : State :=
  adoptPlan { s with sequencer := { s.sequencer with
    cycleCount := s.sequencer.cycleCount + 1
    length := s.planner.settings.length
    tolerance := s.planner.settings.tolerance
    markLow := false
    next := some 0
    run := none } }

/-- The sequencer state a mode is entered with (08 R138, R140). -/
def CycleMode.entryState : CycleMode → SequencerState
  | .off => .stopped
  | .master => .running
  | .follower => .seeking

/-- A change of mode acts at once: new settings in force, MARK begun in MASTER and released otherwise, no cycle under
way until the first cycle start (08 R140, R149). -/
def changeMode (v : CycleSettings) (s : State) : State :=
  { s with sequencer := { s.sequencer with
    state := v.mode.entryState, length := v.length, tolerance := v.tolerance, markLow := decide (v.mode = .master),
    longPulse := false, next := none, run := none } }

/-- The sequencer enters SUSPENDED: the window in progress is cut and no later one of the cycle runs (08 R152). -/
def suspend (s : State) : State :=
  { s with sequencer := { s.sequencer with state := .suspended, next := none, run := none } }

/-- An ILLEGAL pulse is counted, and moves LOCKED to SUSPENDED; one notice (08 R152, R159). -/
def takeIllegal (s : State) : State :=
  let counted := { s with sequencer := { s.sequencer with illegalCount := saturate 65535 s.sequencer.illegalCount } }
  transmit (postCycle .illegal (if s.sequencer.state = .locked then suspend counted else counted))

/-- A valid mark's end (08 R151, R152), `sinceStart` ticks after the last cycle start. In LOCKED a mark later than
C + tolerance cannot come, as LOST_TIMEOUT has come before it. -/
def takeMark (sinceStart : Nat) (s : State) : State :=
  let q := s.sequencer
  match q.state with
  | .seeking | .suspended =>
    transmit (postCycle .stateChange (startCycle { s with sequencer := { q with state := .locked } }))
  | .locked =>
    if sinceStart + q.tolerance < q.length then
      transmit
        (postCycle .early (startCycle { s with sequencer := { q with earlyCount := saturate 65535 q.earlyCount } }))
    else if sinceStart ≤ q.length + q.tolerance then startCycle s
    else s
  | .stopped | .running => s

/-! ### A window's run (08 R154, R155) -/

/-- Whether an access of a phase is a full one: the first of each burst (07 R128). -/
def Descriptor.fullAt (d : Descriptor) (index : Nat) : Bool := decide (index % d.burst = 0)

/-- The transfers of a phase. -/
def Descriptor.transfers (d : Descriptor) (inPhase : Bool) : Nat := if inPhase then d.inTransfers else d.outTransfers

/-- The length of the hold part: hold_q and the ticks added by the access-raised minimum (07 R127, 08 R154). -/
def Descriptor.holdTicks (d : Descriptor) (index : Nat) : Nat :=
  if d.fullAt index then d.fullAccess - d.setupQ - d.strobeQ else d.shortAccess - d.strobeQ

/-- The strobe part of the present access begins. -/
def WindowRun.beginStrobe (run : WindowRun) : WindowRun :=
  { run with part := .strobe, strobeTicks := run.window.strobeQ }

/-- The access at a place of the window begins, with its setup part if it is a full one that has setup ticks. -/
def WindowRun.beginAccess (run : WindowRun) : WindowRun :=
  if run.window.fullAt run.index && decide (run.window.setupQ ≠ 0) then { run with part := .setup }
  else run.beginStrobe

/-- What comes at a place of the window: the access there, the in phase after the out phase, or, when every access has
run, the ticks up to the gap. -/
def WindowRun.arrive (run : WindowRun) : WindowRun :=
  if run.index < run.window.transfers run.inPhase then run.beginAccess
  else if !run.inPhase && decide (0 < run.window.inTransfers) then
    { run with inPhase := true, index := 0 }.beginAccess
  else { run with part := .tail }

/-- The access after the present one. -/
def WindowRun.nextAccess (run : WindowRun) : WindowRun := { run with index := run.index + 1 }.arrive

/-- The strobe part ends: the hold part follows if it has ticks, else the next access. -/
def WindowRun.endStrobe (run : WindowRun) : WindowRun :=
  let passed := { run with elapsed := run.elapsed + run.strobeTicks }
  if run.window.holdTicks run.index = 0 then passed.nextAccess else { passed with part := .hold }

/-- A part of an access ends (08 R154). The strobe of a card that uses RDY does not end so, but by its strobe ticks
(R155). -/
def WindowRun.endPart (run : WindowRun) : WindowRun :=
  match run.part with
  | .setup => { run with elapsed := run.elapsed + run.window.setupQ }.beginStrobe
  | .strobe => if run.window.stretch = 0 then run.endStrobe else run
  | .hold => { run with elapsed := run.elapsed + run.window.holdTicks run.index }.nextAccess
  | .tail => run

/-- The end of a strobe tick from the strobe_q-th on, for a card that uses RDY (08 R155). -/
def WindowRun.strobeTick (rdyHigh : Bool) (run : WindowRun) : WindowRun :=
  if run.part ≠ .strobe ∨ run.window.stretch = 0 then run
  else if rdyHigh then run.endStrobe
  else if run.stretch < run.window.stretch then
    { run with stretch := run.stretch + 1, strobeTicks := run.strobeTicks + 1 }
  else { run with part := .tail, overrun := true, elapsed := run.elapsed + run.strobeTicks }

/-- The run of a window from its start. -/
def WindowRun.begin (w : ActiveWindow) : WindowRun :=
  { slot := w.slot, window := w.window, inPhase := false, index := 0, part := .tail, strobeTicks := 0, stretch := 0,
    overrun := false, elapsed := 0 : WindowRun }.arrive

end Sys2Proof.Machine
end

