-- ==== Sys2Proof/Machine/Window.lean ====
section
/-!
DEFINITION. Exchange window arithmetic (07): from a card's declarations to its window descriptor, and the span check.
-/
namespace Sys2Proof.Machine

/-- Declared nanoseconds in bus ticks of 20 ns, rounded up (07 R124). -/
def ticksOf (ns : Nat) : Nat := ceilDiv ns 20

/-- The seven-bit code of a timing need, none above 568 ticks (07 R126). -/
def timingCode (v : Nat) : Option Nat :=
  if v ≤ 63 then some v else if v ≤ 568 then some (64 + ceilDiv (v - 64) 8) else none

/-- The quantized value of a timing code (07 R125). -/
def quantized (c : Nat) : Nat := if c ≤ 63 then c else 64 + 8 * (c - 64)

/-- The data path width in bytes (07 R123). -/
def widthOf (code : Nat) : Nat := if code = 0 then 1 else if code = 1 then 2 else 4

/-- The burst length (07 R123). -/
def burstOf (code : Nat) : Nat := if code = 0 then 1 else if code = 1 then 4 else 8

/-- An access is at least 3 ticks long (07 R127). -/
def raiseAccess (ticks : Nat) : Nat := if ticks < 3 then 3 else ticks

/-- The strobe need, raised to 1 tick when it is 0 (07 R124). -/
def strobeNeed (ns : Nat) : Nat := if ticksOf ns = 0 then 1 else ticksOf ns

/-- The largest stretch allowance (07 R129). -/
def stretchCap : Nat := 400

/-- The gap of a window: float time only with an in phase, at least 2 ticks (07 R130). -/
def gapOf (floatTicks inTransfers : Nat) : Nat := if inTransfers = 0 then 2 else max floatTicks 2

/-- The descriptor from an identity and its three timing codes (07 R127 to R132). -/
def descriptorOf (ident : List Byte) (setupCode strobeCode holdCode : Nat) : Descriptor :=
  let width := widthOf (identWidthCode ident)
  let burst := burstOf (identBurstCode ident)
  let outTransfers := ceilDiv (identOut ident) width
  let inTransfers := ceilDiv (identIn ident) width
  let setupQ := quantized setupCode
  let strobeQ := quantized strobeCode
  let holdQ := quantized holdCode
  let full := raiseAccess (setupQ + strobeQ + holdQ)
  let short := raiseAccess (strobeQ + holdQ)
  let outFull := ceilDiv outTransfers burst
  let inFull := ceilDiv inTransfers burst
  let stretch := min (ticksOf (identStretch ident)) stretchCap
  let gap := gapOf (ticksOf (identFloat ident)) inTransfers
  { width := width, burst := burst, outTransfers := outTransfers, inTransfers := inTransfers, setupCode := setupCode,
    strobeCode := strobeCode, holdCode := holdCode, setupQ := setupQ, strobeQ := strobeQ, holdQ := holdQ,
    fullAccess := full, shortAccess := short, outFull := outFull, outShort := outTransfers - outFull,
    inFull := inFull, inShort := inTransfers - inFull, stretch := stretch, gap := gap,
    length := (outFull + inFull) * full + (outTransfers - outFull + (inTransfers - inFull)) * short + stretch + gap }

/-- The clamp flags of a descriptor formed from an identity (07 R124, R127, R129). -/
def clampFlagsOf (ident : List Byte) (d : Descriptor) : ClampFlags :=
  { stretchClamped := decide (stretchCap < ticksOf (identStretch ident)),
    strobeRaised := decide (ticksOf (identStrobe ident) = 0),
    accessRaised := decide (d.setupQ + d.strobeQ + d.holdQ < 3) || decide (d.strobeQ + d.holdQ < 3) }

/-- The descriptor and flags of a card, none when a timing need is above 568 ticks (07 R122, R126). -/
def windowOf (ident : List Byte) : Option (Descriptor × ClampFlags) :=
  match timingCode (ticksOf (identSetup ident)), timingCode (strobeNeed (identStrobe ident)),
      timingCode (ticksOf (identHold ident)) with
  | some setupCode, some strobeCode, some holdCode =>
    let d := descriptorOf ident setupCode strobeCode holdCode
    some (d, clampFlagsOf ident d)
  | _, _, _ => none

/-- The usable span of the planning settings (07 R133). -/
def usableSpan (v : CycleSettings) : Nat :=
  match v.mode with
  | .master | .off => v.length - 300
  | .follower => v.length - v.tolerance - 300

end Sys2Proof.Machine
end

