-- ==== Sys2Proof/Machine/CycleCommands.lean ====
section
/-!
DEFINITION. The host commands of the cycle: SET_CYCLE, PLAN_READ, CYCLE_STATUS.
-/
namespace Sys2Proof.Machine

/-- Whether any slot is in JOINING or RUNNING (08 R139). -/
def State.anyPlanned (s : State) : Bool :=
  s.slots.toList.any fun c => decide (c.state = .joining) || decide (c.state = .running)

/-- Whether a taken SET_CYCLE walks the room queue: the mode leaves OFF, or the usable span grows (08 R140, R144). -/
def cycleWalks (old new : CycleSettings) : Bool :=
  (decide (old.mode = .off) && decide (new.mode ≠ .off)) || decide (usableSpan old < usableSpan new)

/-- A taken SET_CYCLE: planning settings, the mode change with its notice, and the walk (08 R139, R140). -/
def applyCycle (v : CycleSettings) (s : State) : State :=
  let planned := { s with planner := { s.planner with settings := v } }
  let moved := if v.mode = s.planner.settings.mode then planned else postCycle .stateChange (changeMode v planned)
  if cycleWalks s.planner.settings v then walkRoom moved else moved

/-- SET_CYCLE of a known mode, in the order of 08 R139. -/
def judgeCycle (v : CycleSettings) (s : State) : State × Status :=
  if v.length < 2500 ∨ 500000 < v.length ∨ v.tolerance < 10 ∨ 500 < v.tolerance then (s, .badArgument)
  else if v.mode ≠ s.planner.settings.mode ∧ s.planner.settings.mode ≠ .off ∧ s.anyPlanned then (s, .wrongState)
  else if planFits v s.planner.plan then (applyCycle v s, .ok)
  else (s, .wontFit)

/-- SET_CYCLE; every reply carries the settings and the sequencer state after the command (08 R139). -/
def answerSetCycle (mode : Byte) (length : Long) (tolerance : Word) (s : State) : State × Answer :=
  match cycleModeOf mode with
  | none => (s, { status := .badArgument, data := cycleBytes s })
  | some m =>
    let judged := judgeCycle { mode := m, length := length.toNat, tolerance := tolerance.toNat } s
    (judged.1, { status := judged.2, data := cycleBytes judged.1 })

/-- PLAN_READ of a position of the active plan (08 R157). -/
def answerPlanRead (position : Byte) (s : State) : State × Answer :=
  if 11 < position.toNat then refuseWith .badArgument s
  else
    match s.sequencer.active[position.toNat]? with
    | some w => (s, okAnswer (planHeaderBytes s ++ windowBytes w))
    | none => (s, { status := .empty, data := planHeaderBytes s })

/-- CYCLE_STATUS reports and changes nothing (08 R158). -/
def answerCycleStatus (s : State) : State × Answer := (s, okAnswer (cycleStatusBytes s))

def execSetCycle (tag mode : Byte) (length : Long) (tolerance : Word) (s : State) :
    Host.Outcome State Fault Refusal :=
  whenLive (takeCommand 0x05 tag (answerSetCycle mode length tolerance)) s

def execPlanRead (tag position : Byte) (s : State) : Host.Outcome State Fault Refusal :=
  whenLive (takeCommand 0x40 tag (answerPlanRead position)) s

def execCycleStatus (tag : Byte) (s : State) : Host.Outcome State Fault Refusal :=
  whenLive (takeCommand 0x41 tag answerCycleStatus) s

end Sys2Proof.Machine
end

