-- ==== Sys2Proof/Machine/ParamCommands.lean ====
section
/-!
DEFINITION. The host commands of the parameter store (06 R109 to R112).
-/
namespace Sys2Proof.Machine

/-- Replace a parameter set. -/
def storeSet (n : Fin 8) (p : ParamSet) (s : State) : State := { s with sets := s.sets.set n p }

/-- A command that names a set: a set number above 7 is answered BAD_ARGUMENT and changes nothing (06 section 6.2). -/
def onSet (set : Byte) (act : Fin 8 → State → State × Answer) (s : State) : State × Answer :=
  match setArg set with
  | some n => act n s
  | none => refuseWith .badArgument s

/-- An answer that carries the set as it stands after the command (06 R109, R110). -/
def setAnswer (status : Status) (n : Fin 8) (s : State) : State × Answer :=
  (s, { status := status, data := paramBytes s.sets[n] })

/-- PARAM_BEGIN (06 R109). -/
def answerParamBegin (set : Byte) (length : Word) : State → State × Answer :=
  onSet set fun n s =>
    if s.sets[n].pins ≠ 0 then setAnswer .setInUse n s
    else if length.toNat < 1 ∨ 512 < length.toNat then setAnswer .badArgument n s
    else
      setAnswer .ok n
        (storeSet n { s.sets[n] with state := .loading, length := length.toNat, words := [] } s)

/-- A set's readiness is announced to every slot controller (06 R112). -/
def announceSet (n : Fin 8) (s : State) : State :=
  { s with slots := s.slots.map fun c =>
      { c with inbox := { c.inbox with announcements := c.inbox.announcements ++ [n] } } }

/-- Words appended to a LOADING set; the set enters READY when it is complete (06 R110). -/
def loadWords (n : Fin 8) (words : List Word) (s : State) : State :=
  let p := s.sets[n]
  let loaded := p.words ++ words
  if loaded.length = p.length then announceSet n (storeSet n { p with words := loaded, state := .ready } s)
  else storeSet n { p with words := loaded } s

/-- PARAM_LOAD (06 R110). A payload of no word or more than 110 is no PARAM_LOAD frame (11.2); a BAD_LENGTH reply carries
the status byte alone (10 R189). -/
def answerParamLoad (set : Byte) (offset : Word) (count : Byte) (words : List Word) (s : State) : State × Answer :=
  if words.length < 1 ∨ 110 < words.length then refuseWith .badLength s
  else
    onSet set (fun n s =>
      if s.sets[n].pins ≠ 0 then setAnswer .setInUse n s
      else if s.sets[n].state ≠ .loading then setAnswer .wrongState n s
      else if count.toNat < 1 ∨ 110 < count.toNat then setAnswer .badArgument n s
      else if words.length ≠ count.toNat then refuseWith .badLength s
      else if offset.toNat ≠ s.sets[n].written then setAnswer .badArgument n s
      else if s.sets[n].length < offset.toNat + count.toNat then setAnswer .badArgument n s
      else setAnswer .ok n (loadWords n words s)) s

/-- PARAM_STATUS (06 R111). -/
def answerParamStatus (set : Byte) : State → State × Answer := onSet set fun n s => setAnswer .ok n s

/-- PARAM_FREE (06 R111). -/
def answerParamFree (set : Byte) : State → State × Answer :=
  onSet set fun n s =>
    if s.sets[n].pins ≠ 0 then refuseWith .setInUse s else (storeSet n ParamSet.empty s, okAnswer [])

def execParamBegin (tag set : Byte) (length : Word) (s : State) : Host.Outcome State Fault Refusal :=
  whenLive (takeCommand 0x30 tag (answerParamBegin set length)) s

def execParamLoad (tag set : Byte) (offset : Word) (count : Byte) (words : List Word) (s : State) :
    Host.Outcome State Fault Refusal :=
  whenLive (takeCommand 0x31 tag (answerParamLoad set offset count words)) s

def execParamStatus (tag set : Byte) (s : State) : Host.Outcome State Fault Refusal :=
  whenLive (takeCommand 0x32 tag (answerParamStatus set)) s

def execParamFree (tag set : Byte) (s : State) : Host.Outcome State Fault Refusal :=
  whenLive (takeCommand 0x33 tag (answerParamFree set)) s

end Sys2Proof.Machine
end

