-- ==== Sys2Proof/Machine/PartCommands.lean ====
section
/-!
DEFINITION. The part-wide host commands: PART_STATUS, WARM_RESTART, SET_SLOT_TIMES, SET_POWER.
-/
namespace Sys2Proof.Machine

/-- PART_STATUS reports and changes nothing (10 R193). -/
def answerPartStatus (s : State) : State × Answer := (s, okAnswer (partStatusBytes s))

/-- WARM_RESTART enters the restart wait; its OK reply is queued behind the others (10 R194). -/
def answerWarmRestart (s : State) : State × Answer :=
  ({ s with link := { s.link with restartWait := true } }, okAnswer [])

/-- The seven settings of a SET_SLOT_TIMES as carried. -/
def carriedTimes (v : SlotTimesFields) : SlotTimes :=
  { debounce := v.debounce.toNat, rampLimit := v.rampLimit.toNat, resetHold := v.resetHold.toNat,
    readyTimeout := v.readyTimeout.toNat, consentTimeout := v.consentTimeout.toNat, cooldown := v.cooldown.toNat,
    retryLimit := v.retryLimit.toNat }

/-- Each slot setting clamped to its range (01 R26). -/
def clampTimes (v : SlotTimes) : SlotTimes :=
  { debounce := clamp 1 255 v.debounce, rampLimit := clamp 1 200 v.rampLimit, resetHold := clamp 1 255 v.resetHold,
    readyTimeout := clamp 10 10000 v.readyTimeout, consentTimeout := clamp 1 255 v.consentTimeout,
    cooldown := clamp 100 5000 v.cooldown, retryLimit := clamp 0 3 v.retryLimit }

/-- The status of a command that clamps: CLAMPED when a value was clamped. -/
def clampStatus (clamped : Bool) : Status := if clamped then .clamped else .ok

/-- SET_SLOT_TIMES is always taken; running timers keep their times (01 R26). -/
def answerSetSlotTimes (v : SlotTimesFields) (s : State) : State × Answer :=
  let times := clampTimes (carriedTimes v)
  ({ s with times := times },
    { status := clampStatus (decide (times ≠ carriedTimes v)), data := slotTimesBytes times })

/-- The overload threshold of a card's steady power under a margin (05 R88). -/
def overloadThreshold (power margin : Nat) : Nat :=
  min 4095 (ceilDiv (ceilDiv (ceilDiv (power * 25) 6 * margin) 100) 5)

/-- Every held overload threshold is recomputed for the margin in force (05 R87). -/
def recomputeThresholds (s : State) : State :=
  { s with slots := s.slots.map fun c =>
      { c with threshold := c.threshold.map fun _ => overloadThreshold c.power s.monitor.margin } }

/-- The queued slots whose steady power exceeds the budget in force are refused with POWER_RANGE (05 R86, R94). Their
notices are posted in queue order, head first, which the manual leaves open (DESIGN CHOICE, log 18). -/
def refuseQueued : List PowerEntry → State → State
  | [], s => s
  | e :: rest, s =>
    refuseQueued rest
      (if s.arbiter.budget < e.power then transition e.slot .refused .powerRange (powerDown e.slot s) else s)

/-- The four monitor settings of a SET_POWER, clamped to their ranges (05 R85). -/
def clampMonitor (v : PowerFields) (m : Monitor) : Monitor :=
  { m with margin := clamp 110 200 v.margin.toNat, inrush := clamp 100 1600 v.inrush.toNat,
           filter := clamp 1 50 v.filter.toNat, railDip := clamp 1000 2400 v.railDip.toNat }

/-- Whether a monitor setting of a SET_POWER lies outside its range. -/
def monitorClamped (v : PowerFields) : Bool :=
  decide (clamp 110 200 v.margin.toNat ≠ v.margin.toNat) || decide (clamp 100 1600 v.inrush.toNat ≠ v.inrush.toNat) ||
    decide (clamp 1 50 v.filter.toNat ≠ v.filter.toNat) || decide (clamp 1000 2400 v.railDip.toNat ≠ v.railDip.toNat)

/-- The six settings stored (05 R85). -/
def storePower (v : PowerFields) (s : State) : State :=
  { s with
    arbiter := { s.arbiter with budget := v.budget.toNat, rampLimit := v.rampLimit.toNat }
    monitor := clampMonitor v s.monitor }

/-- A taken SET_POWER: settings, thresholds, refusals under a lowered budget, examination (05 R85 to R87). -/
def applyPower (v : PowerFields) (s : State) : State :=
  let stored := recomputeThresholds (storePower v s)
  examine (if v.budget.toNat < s.arbiter.budget then refuseQueued stored.arbiter.queue stored else stored)

/-- SET_POWER in the order of 05 R85; every reply carries the six values in force after the command. -/
def answerSetPower (v : PowerFields) (s : State) : State × Answer :=
  if v.budget.toNat < 10 ∨ 20000 < v.budget.toNat ∨ v.rampLimit.toNat < 1 ∨ 4 < v.rampLimit.toNat then
    (s, { status := .badArgument, data := powerBytes s })
  else if v.budget.toNat < s.arbiter.committed ∨ v.rampLimit.toNat < s.arbiter.ramping then
    (s, { status := .wrongState, data := powerBytes s })
  else
    (applyPower v s, { status := clampStatus (monitorClamped v), data := powerBytes (applyPower v s) })

def execPartStatus (tag : Byte) (s : State) : Host.Outcome State Fault Refusal :=
  whenLive (takeCommand 0x01 tag answerPartStatus) s

def execWarmRestart (tag : Byte) (s : State) : Host.Outcome State Fault Refusal :=
  whenLive (takeCommand 0x02 tag answerWarmRestart) s

def execSetSlotTimes (tag : Byte) (v : SlotTimesFields) (s : State) : Host.Outcome State Fault Refusal :=
  whenLive (takeCommand 0x03 tag (answerSetSlotTimes v)) s

def execSetPower (tag : Byte) (v : PowerFields) (s : State) : Host.Outcome State Fault Refusal :=
  whenLive (takeCommand 0x04 tag (answerSetPower v)) s

end Sys2Proof.Machine
end

