-- ==== Sys2Proof/Machine/PolicyCommands.lean ====
section
/-!
DEFINITION. The host commands of the admission filter and the credential store (03 R57 to R60, 04 R70 to R72).
-/
namespace Sys2Proof.Machine

/-- Replace one policy entry. -/
def storeEntry (n : Fin 16) (e : PolicyEntry) (s : State) : State :=
  { s with policy := { s.policy with entries := s.policy.entries.set n e } }

/-- The entry a POLICY_WRITE gives, or none when an argument is out of range (03 R57). -/
def writtenEntry (v : PolicyFields) : Option PolicyEntry :=
  match entryKindOf v.kind with
  | none => none
  | some .unused => some { PolicyEntry.reset with kind := .unused, pattern := v.pattern, mask := v.mask }
  | some .reject => some { PolicyEntry.reset with kind := .reject, pattern := v.pattern, mask := v.mask }
  | some .accept =>
    match policyActionOf v.action, policySetOf v.set with
    | some action, some set =>
      if v.rank = 0 then none
      else some { kind := .accept, pattern := v.pattern, mask := v.mask, action := action, rank := v.rank.toNat,
                  set := set }
    | _, _ => none

/-- POLICY_WRITE (03 R57). -/
def answerPolicyWrite (v : PolicyFields) (s : State) : State × Answer :=
  if s.policy.frozen then refuseWith .frozen s
  else
    match indexOf 16 v.entry.toNat, writtenEntry v with
    | some n, some e => (storeEntry n e s, okAnswer (policyEntryBytes e))
    | _, _ => refuseWith .badArgument s

/-- POLICY_READ (03 R58). -/
def answerPolicyRead (entry : Byte) (s : State) : State × Answer :=
  match indexOf 16 entry.toNat with
  | some n =>
    (s, okAnswer (policyEntryBytes s.policy.entries[n] ++ u8 s.policy.default.code ++ [flagByte s.policy.frozen]))
  | none => refuseWith .badArgument s

/-- POLICY_DEFAULT (03 R59). -/
def answerPolicyDefault (action : Byte) (s : State) : State × Answer :=
  if s.policy.frozen then refuseWith .frozen s
  else
    match defaultActionOf action with
    | some d => ({ s with policy := { s.policy with default := d } }, okAnswer [])
    | none => refuseWith .badArgument s

/-- POLICY_FREEZE (03 R60). -/
def answerPolicyFreeze (s : State) : State × Answer :=
  ({ s with policy := { s.policy with frozen := true } }, okAnswer [])

/-- Write a key slot; the reply carries its number and the four loaded flags (04 R70, R71). -/
def storeKey (k : Fin 4) (slot : KeySlot) (s : State) : State × Answer :=
  let keys := s.keys.set k slot
  ({ s with keys := keys }, okAnswer (u8 k.val ++ loadedBytes keys))

/-- KEY_LOAD (04 R70). A payload without sixteen key bytes is no KEY_LOAD frame (10 R188). -/
def answerKeyLoad (keySlot : Byte) (key : List Byte) (s : State) : State × Answer :=
  if key.length ≠ 16 then refuseWith .badLength s
  else if s.policy.frozen then refuseWith .frozen s
  else
    match keyArg keySlot with
    | some k => storeKey k { loaded := true, key := key } s
    | none => refuseWith .badArgument s

/-- KEY_ERASE (04 R71). -/
def answerKeyErase (keySlot : Byte) (s : State) : State × Answer :=
  if s.policy.frozen then refuseWith .frozen s
  else
    match keyArg keySlot with
    | some k => storeKey k KeySlot.empty s
    | none => refuseWith .badArgument s

/-- KEY_STATUS (04 R72). -/
def answerKeyStatus (s : State) : State × Answer := (s, okAnswer (loadedBytes s.keys))

def execPolicyWrite (tag : Byte) (v : PolicyFields) (s : State) : Host.Outcome State Fault Refusal :=
  whenLive (takeCommand 0x20 tag (answerPolicyWrite v)) s

def execPolicyRead (tag entry : Byte) (s : State) : Host.Outcome State Fault Refusal :=
  whenLive (takeCommand 0x21 tag (answerPolicyRead entry)) s

def execPolicyDefault (tag action : Byte) (s : State) : Host.Outcome State Fault Refusal :=
  whenLive (takeCommand 0x22 tag (answerPolicyDefault action)) s

def execPolicyFreeze (tag : Byte) (s : State) : Host.Outcome State Fault Refusal :=
  whenLive (takeCommand 0x23 tag answerPolicyFreeze) s

def execKeyLoad (tag keySlot : Byte) (key : List Byte) (s : State) : Host.Outcome State Fault Refusal :=
  whenLive (takeCommand 0x24 tag (answerKeyLoad keySlot key)) s

def execKeyErase (tag keySlot : Byte) (s : State) : Host.Outcome State Fault Refusal :=
  whenLive (takeCommand 0x25 tag (answerKeyErase keySlot)) s

def execKeyStatus (tag : Byte) (s : State) : Host.Outcome State Fault Refusal :=
  whenLive (takeCommand 0x26 tag answerKeyStatus) s

end Sys2Proof.Machine
end

