-- ==== Sys2Proof/Machine/TraceMemory.lean ====
section
/-!
DEFINITION. The recorder's trace memory (09 R162): frame places read and written in canonical form, places strictly
rising and no listed frame equal to what an unlisted place reads as. The manual gives no contents after power-on; an
unlisted place reads as the zero frame (DESIGN CHOICE, log 9).
-/
namespace Sys2Proof.Machine

/-- What an unlisted place reads as. -/
def blankFrame : MonitorSample := { currents := Vector.replicate 12 0, rail := 0, pg := 0 }

/-- The stored frame at a place. -/
def readPlace : Memory → Nat → MonitorSample
  | [], _ => blankFrame
  | (k, f) :: m, a => if k = a then f else readPlace m a

/-- A listed place, or nothing for a frame that an unlisted place reads as. -/
def listPlace (a : Nat) (f : MonitorSample) (m : Memory) : Memory := if f = blankFrame then m else (a, f) :: m

/-- Store a frame at a place, overwriting the frame that was there. -/
def writePlace : Memory → Nat → MonitorSample → Memory
  | [], a, f => listPlace a f []
  | (k, g) :: m, a, f =>
    if a < k then listPlace a f ((k, g) :: m)
    else if a = k then listPlace a f m
    else (k, g) :: writePlace m a f

/-- Every place of the list lies above `low`, in strictly rising order, with no blank frame. -/
def Memory.above : Nat → Memory → Bool
  | _, [] => true
  | low, (k, f) :: m => decide (low ≤ k) && decide (f ≠ blankFrame) && Memory.above (k + 1) m

/-- The canonical form. -/
def Memory.wf (m : Memory) : Bool := Memory.above 0 m

end Sys2Proof.Machine
end

