-- ==== Sys2Proof/Machine/RecorderOps.lean ====
section
/-!
DEFINITION. The fault recorder's own operations (09): writing frames, triggers, captures, freezing, the gate.
-/
namespace Sys2Proof.Machine

/-- What became of a trigger (09 R168, R169). -/
inductive TriggerFate where
  | started | latched | overlap | merged | refused | disabled | ignored
  deriving DecidableEq, Repr

/-- The code of a trigger's fate in the REC_TRIGGER reply (11.3). An ungated trigger is ignored in STOPPED only, where
REC_TRIGGER is answered WRONG_STATE. -/
def TriggerFate.code : TriggerFate → Byte
  | .started => 0 | .latched => 1 | .overlap => 2 | .merged => 3 | .refused => 4 | .disabled | .ignored => 5

/-- A TRACE_OUT pulse begins, if TRACE_OUT is enabled (09 R171). -/
def Recorder.pulse (r : Recorder) : Recorder := if r.settings.traceOut then { r with traceOutLow := true } else r

/-- Segment W becomes current (09 R174). -/
def Recorder.makeCurrent (r : Recorder) : Recorder := { r with writePos := 0, written := 0, pattern := 0 }

/-- Segment W becomes current and the recorder enters FILLING_PRE, or READY at once when P is 0 (09 R165). -/
def Recorder.beginFilling (r : Recorder) : Recorder :=
  { r.makeCurrent with state := if r.settings.pre = 0 then .ready else .fillingPre }

/-- A capture starts in READY: the remaining count is L - P and the trigger frame is awaited (09 R171). -/
def Recorder.startCapture (r : Recorder) (t : Trigger) : Recorder :=
  { r with state := .capturing { source := t, remaining := r.frameCount - r.settings.pre, awaiting := true,
                                 pre := r.settings.pre, triggerIndex := 0, time := 0, cycle := 0 } }

/-- An enabled trigger by state and phase (09 R169, R172, R173). -/
def Recorder.takeEnabled (r : Recorder) (t : Trigger) : Recorder × TriggerFate :=
  match r.state with
  | .stopped => (r, .ignored)
  | .fillingPre | .full => ({ r with refused := saturate 255 r.refused }, .refused)
  | .ready => ((r.startCapture t).pulse, .started)
  | .capturing c =>
    if r.settings.overlap < c.remaining then
      if t.source.gated then (r, .ignored)
      else if r.latches.contains t.source then (r, .merged)
      else ({ r with latches := r.latches ++ [t.source] }, .latched)
    else
      match r.overlap with
      | some _ => (r, .merged)
      | none => ({ r with overlap := some t }.pulse, .overlap)

/-- A trigger condition arrives; one whose source is not enabled is ignored (09 R168). -/
def Recorder.takeTrigger (r : Recorder) (t : Trigger) : Recorder × TriggerFate :=
  if r.settings.enabled t.source then r.takeEnabled t else (r, .disabled)

/-- A frame is stored at the write position of segment W, and the decimation count restarts from it (09 R162). -/
def Recorder.store (r : Recorder) (f : MonitorSample) : Recorder :=
  { r with
    memory := writePlace r.memory (r.w * r.frameCount + r.writePos) f
    writePos := (r.writePos + 1) % r.frameCount
    written := min r.frameCount (r.written + 1)
    skip := r.settings.decimation - 1 }

/-- The overlap phase begins: the earlier-set latch becomes overlap-pending, and both latches are cleared (09 R172). -/
def Recorder.enterOverlap (r : Recorder) : Recorder :=
  match r.latches with
  | source :: _ => { r with overlap := some { source := source, slot := none }, latches := [] }.pulse
  | [] => r

/-- What a frame leaves to others: the cause of a notice, and a trace reference for a slot's record. -/
structure FrameEffect where
  cause : Option RecCause
  traceRef : Option (SlotId × Nat)
  deriving DecidableEq, Repr

/-- A frame without effect beyond the recorder. -/
def FrameEffect.none : FrameEffect := { cause := Option.none, traceRef := Option.none }

/-- The record of a kept segment (09 R177). -/
def Recorder.recordOf (r : Recorder) (c : Capture) : EventRecord :=
  { sequence := r.sequence, segment := r.w, stop := (r.writePos + r.frameCount - 1) % r.frameCount,
    triggerIndex := c.triggerIndex, pre := c.pre, source := c.source, pattern := r.pattern, time := c.time,
    cycle := c.cycle, gateOpen := r.gateOpen, refused := r.refused }

/-- The keep path (09 R174). In FULL no segment is current: the write position and the written count stand as the frozen
segment left them (log 24, the model's choice). -/
def Recorder.keepSegment (r : Recorder) (c : Capture) : Recorder × FrameEffect :=
  let reference := c.source.slot.map fun i => (i, r.sequence)
  let kept : Recorder :=
    { r with events := r.events ++ [r.recordOf c], sequence := (r.sequence + 1) % 65536, refused := 0,
             w := (r.w + 1) % r.segments, lastWrite := true }
  if kept.w = kept.r then
    ({ kept with state := .full, refused := if r.overlap.isSome then 1 else 0, overlap := none },
      { cause := some .full, traceRef := reference })
  else
    match r.overlap with
    | some t =>
      ({ kept.makeCurrent with
          overlap := none
          state := .capturing { source := t, remaining := r.frameCount, awaiting := true, pre := 0, triggerIndex := 0,
                                time := 0, cycle := 0 } },
        { cause := some .record, traceRef := reference })
    | none => (kept.beginFilling, { cause := some .record, traceRef := reference })

/-- The discard path: READY in the same segment; an ungated pending trigger starts a new capture there (09 R175). -/
def Recorder.discardSegment (r : Recorder) : Recorder × FrameEffect :=
  let ready : Recorder := { r with state := .ready, pattern := 0, overlap := none }
  let next :=
    match r.overlap with
    | some t => if t.source.gated then ready else ready.startCapture t
    | none => ready
  (next, { cause := some .discard, traceRef := none })

/-- The freeze: kept for an ungated source or an open gate, else discarded (09 R173). -/
def Recorder.freeze (r : Recorder) (c : Capture) : Recorder × FrameEffect :=
  if !c.source.source.gated || r.gateOpen then r.keepSegment c else r.discardSegment

/-- A frame of a capture has been stored: the remaining count falls, the overlap phase begins at O, and the segment
freezes at 0 (09 R171 to R173). -/
def Recorder.captureStored (r : Recorder) (c : Capture) : Recorder × FrameEffect :=
  let counted : Capture := { c with remaining := c.remaining - 1 }
  let r1 : Recorder := { r with state := .capturing counted }
  let r2 := if counted.remaining = r.settings.overlap then r1.enterOverlap else r1
  if counted.remaining = 0 then r2.freeze counted else (r2, FrameEffect.none)

/-- A monitor frame passed over by the decimation. -/
def Recorder.passOver (r : Recorder) : Recorder × FrameEffect := ({ r with skip := r.skip - 1 }, FrameEffect.none)

/-- The recorder takes a monitor frame, the sequencer's cycle count beside it (09 R162, R167, R171). -/
def Recorder.takeFrame (r : Recorder) (f : MonitorFrame) (cycle : Long) : Recorder × FrameEffect :=
  match r.state with
  | .stopped | .full => (r, FrameEffect.none)
  | .fillingPre =>
    if r.skip ≠ 0 then r.passOver
    else
      let stored := r.store f.sample
      if r.settings.pre ≤ stored.written then
        ({ stored with state := .ready }, { cause := some .stateChange, traceRef := none })
      else (stored, FrameEffect.none)
  | .ready => if r.skip ≠ 0 then r.passOver else (r.store f.sample, FrameEffect.none)
  | .capturing c =>
    if c.awaiting then
      (r.store f.sample).captureStored
        { c with awaiting := false, triggerIndex := r.writePos, time := f.time, cycle := cycle }
    else if r.skip ≠ 0 then r.passOver
    else (r.store f.sample).captureStored c

/-- A report of a slot entering or leaving the bring-up group (09 R170). -/
def Recorder.takeReport (r : Recorder) (entering : Bool) : Recorder :=
  if entering then
    if r.gateCount = 0 then { r with gateCount := 1, gateOpen := true, gateTail := none }
    else { r with gateCount := r.gateCount + 1 }
  else if r.gateCount = 1 then
    if r.settings.gateTail = 0 then { r with gateCount := 0, gateOpen := false }
    else { r with gateCount := 0, gateTail := some r.settings.gateTail }
  else { r with gateCount := r.gateCount - 1 }

/-- The ring and its records are cleared: every segment unfrozen (09 R164, R182, R183). -/
def Recorder.clearRing (r : Recorder) : Recorder :=
  { r with memory := [], events := [], w := 0, r := 0, lastWrite := false, refused := 0 }

end Sys2Proof.Machine
end

