-- ==== Sys2Proof/Machine/RecorderCommands.lean ====
section
/-!
DEFINITION. The host commands of the fault recorder (09 R164 to R168, R178 to R180).
-/
namespace Sys2Proof.Machine

/-- Replace the recorder. -/
def State.setRecorder (s : State) (r : Recorder) : State := { s with recorder := r }

/-- The settings a REC_SET carries (11.2): enable bits 5 to 7 and the TRACE_OUT byte's bits 1 to 7 are not examined
(log 22). -/
def carriedRecSettings (v : RecSetFields) : RecSettings :=
  { mode := v.mode.toNat, pre := v.pre.toNat, overlap := v.overlap.toNat, decimation := v.decimation.toNat,
    gateTail := v.gateTail.toNat, enables := v.enables.setWidth 5, traceOut := v.traceOut.getLsbD 0 }

/-- The ranges of the recorder settings (09 R164). -/
def RecSettings.inRange (v : RecSettings) : Bool :=
  decide (v.mode ≤ 5) && decide (v.pre < framesOf v.mode) && decide (v.pre + v.overlap < framesOf v.mode) &&
    decide (1 ≤ v.decimation) && decide (v.decimation ≤ 100) && decide (v.gateTail ≤ 1000)

/-- REC_SET: only in STOPPED; stores the settings and clears the trace memory; every reply carries the settings
(09 R164). -/
def answerRecSet (v : RecSetFields) (s : State) : State × Answer :=
  if s.recorder.state ≠ .stopped then
    (s, { status := .wrongState, data := recSettingsBytes s.recorder.settings })
  else if !(carriedRecSettings v).inRange then
    (s, { status := .badArgument, data := recSettingsBytes s.recorder.settings })
  else
    (s.setRecorder { s.recorder.clearRing with settings := carriedRecSettings v },
      okAnswer (recSettingsBytes (carriedRecSettings v)))

/-- The recorder writes again from STOPPED or FULL: the next monitor frame is stored (09 R162, R165). -/
def Recorder.armFree (r : Recorder) : Recorder := { r.beginFilling with skip := 0 }

/-- Arming: FULL when all segments are frozen (09 R165); the write position and the written count then stand at the 0 that
STOPPED holds (log 24, the model's choice). -/
def Recorder.arm (r : Recorder) : Recorder :=
  if r.w = r.r ∧ r.lastWrite then { r with state := .full } else r.armFree

/-- REC_ARM (09 R165); its notice has the first cause that applies, FULL before STATE_CHANGE (R181). -/
def answerRecArm (s : State) : State × Answer :=
  if s.recorder.state = .stopped then
    let armed := s.recorder.arm
    (postRecorder (if armed.state = .full then .full else .stateChange) (s.setRecorder armed), okAnswer [])
  else refuseWith .wrongState s

/-- Stopping: the current segment's frames, a capture, the pending trigger and the latches go (09 R166, log 24). -/
def Recorder.stop (r : Recorder) : Recorder :=
  { r with state := .stopped, writePos := 0, written := 0, overlap := none, latches := [] }

/-- REC_STOP (09 R166). -/
def answerRecStop (s : State) : State × Answer :=
  if s.recorder.state = .stopped then (s, okAnswer [])
  else (postRecorder .stateChange (s.setRecorder s.recorder.stop), okAnswer [])

/-- REC_TRIGGER presents a HOST trigger and reports what became of it (09 R168). -/
def answerRecTrigger (s : State) : State × Answer :=
  if s.recorder.state = .stopped then refuseWith .wrongState s
  else
    let taken := s.recorder.takeTrigger { source := .host, slot := none }
    (s.setRecorder taken.1, okAnswer [taken.2.code])

/-- REC_EVENT reads the oldest record (09 R178). -/
def answerRecEvent (s : State) : State × Answer :=
  match s.recorder.events with
  | e :: _ => (s, okAnswer (eventBytes e))
  | [] => refuseWith .empty s

/-- REC_STATUS (09 R178). -/
def answerRecStatus (s : State) : State × Answer := (s, okAnswer (recStatusBytes s.recorder))

/-- The stored frame at a chronological offset of segment R, whose record has the stop index (09 R179). -/
def Recorder.frameAt (r : Recorder) (stop offset : Nat) : MonitorSample :=
  readPlace r.memory (r.r * r.frameCount + (stop + 1 + offset) % r.frameCount)

/-- REC_DATA (09 R179, 11.6). -/
def answerRecData (offset : Word) (count : Byte) (s : State) : State × Answer :=
  if count.toNat < 1 ∨ 8 < count.toNat ∨ s.recorder.frameCount < offset.toNat + count.toNat then
    refuseWith .badArgument s
  else
    match s.recorder.events with
    | [] => refuseWith .empty s
    | e :: _ =>
      (s, okAnswer (u16 offset.toNat ++ u8 count.toNat ++ (List.range count.toNat).flatMap fun j =>
        storedFrameBytes (s.recorder.frameAt e.stop (offset.toNat + j))))

/-- The oldest segment is released; a FULL recorder fills again (09 R180). -/
def Recorder.release (r : Recorder) (rest : List EventRecord) : Recorder :=
  let freed : Recorder := { r with events := rest, r := (r.r + 1) % r.segments, lastWrite := false }
  if r.state = .full then freed.armFree else freed

/-- REC_RELEASE (09 R180). -/
def answerRecRelease (s : State) : State × Answer :=
  match s.recorder.events with
  | [] => refuseWith .empty s
  | e :: rest =>
    let freed := s.setRecorder (s.recorder.release rest)
    (if s.recorder.state = .full then postRecorder .stateChange freed else freed, okAnswer (u16 e.sequence))

def execRecSet (tag : Byte) (v : RecSetFields) (s : State) : Host.Outcome State Fault Refusal :=
  whenLive (takeCommand 0x50 tag (answerRecSet v)) s

def execRecArm (tag : Byte) (s : State) : Host.Outcome State Fault Refusal :=
  whenLive (takeCommand 0x51 tag answerRecArm) s

def execRecStop (tag : Byte) (s : State) : Host.Outcome State Fault Refusal :=
  whenLive (takeCommand 0x52 tag answerRecStop) s

def execRecTrigger (tag : Byte) (s : State) : Host.Outcome State Fault Refusal :=
  whenLive (takeCommand 0x53 tag answerRecTrigger) s

def execRecEvent (tag : Byte) (s : State) : Host.Outcome State Fault Refusal :=
  whenLive (takeCommand 0x54 tag answerRecEvent) s

def execRecData (tag : Byte) (offset : Word) (count : Byte) (s : State) : Host.Outcome State Fault Refusal :=
  whenLive (takeCommand 0x55 tag (answerRecData offset count)) s

def execRecRelease (tag : Byte) (s : State) : Host.Outcome State Fault Refusal :=
  whenLive (takeCommand 0x56 tag answerRecRelease) s

def execRecStatus (tag : Byte) (s : State) : Host.Outcome State Fault Refusal :=
  whenLive (takeCommand 0x57 tag answerRecStatus) s

end Sys2Proof.Machine
end

