-- ==== Sys2Proof/Machine/Filter.lean ====
section
/-!
DEFINITION. The admission filter's verdict (03 R54, R55).
-/
namespace Sys2Proof.Machine

/-- A verdict of the admission filter (03 R55, R56). -/
inductive Verdict where
  | refuse (reason : Reason) (matched : Option (Fin 16))
  | accept (action : PolicyAction) (matched : Option (Fin 16)) (rank : Nat) (set : Option (Fin 8))
  deriving DecidableEq, Repr

/-- An identity code matches an entry in every bit that its mask compares (03 R54). -/
def PolicyEntry.agrees (e : PolicyEntry) (code : Long) : Bool := code &&& e.mask = e.pattern &&& e.mask

/-- The lowest-numbered entry of a kind that an identity code matches. -/
def Policy.lowest (p : Policy) (kind : EntryKind) (code : Long) : Option (Fin 16) :=
  (List.finRange 16).find? fun n => decide (p.entries[n].kind = kind) && p.entries[n].agrees code

/-- The verdict: a matching REJECT entry, else the lowest matching ACCEPT entry, else the default (03 R55). -/
def Policy.verdict (p : Policy) (code : Long) : Verdict :=
  match p.lowest .reject code with
  | some n => .refuse .rejected (some n)
  | none =>
    match p.lowest .accept code with
    | some n => .accept p.entries[n].action (some n) p.entries[n].rank p.entries[n].set
    | none =>
      match p.default with
      | .refuse => .refuse .noPolicy none
      | .consent => .accept .consent none 255 none

end Sys2Proof.Machine
end

