-- ==== Sys2Proof/Machine/Screening.lean ====
section
/-!
DEFINITION. What a slot controller makes of job completions (02 R47): the identity reads and the screening step (03), the
unlock walk (04), the ready wait (05) and the configuration transfer (06).
-/
namespace Sys2Proof.Machine

/-- Write the screening results. -/
def setScreening (i : SlotId) (r : Screening) (s : State) : State := s.updSlot i fun c => { c with screening := r }

/-- A refusal by the screening step, with the results it leaves (03 R64). -/
def refuseCard (i : SlotId) (reason : Reason) (r : Screening) (s : State) : State :=
  transition i .refused reason (setScreening i r s)

/-- The screening step's questions after the verdict (03 R63, questions 3 to 8). -/
def screenTiming (i : SlotId) (ident : List Byte) (action : PolicyAction) (results : Screening) (s : State) : State :=
  match windowOf ident with
  | none => refuseCard i .timingRange results s
  | some (d, flags) =>
    let full := { results with window := some d, clamps := flags }
    if usableSpan s.planner.settings < d.length then refuseCard i .windowTooLong full s
    else if s.arbiter.budget < identPower ident then refuseCard i .powerRange full s
    else
      match action with
      | .consent => toConsentWait i (setScreening i full s)
      | .allow => admitCard i (setScreening i full s)

/-- The screening step of a valid record (03 R63, R64). -/
def screenCard (i : SlotId) (ident : List Byte) (s : State) : State :=
  match s.policy.verdict (identCode ident) with
  | .refuse reason matched =>
    refuseCard i reason { Screening.absent with identity := some ident, matched := matched } s
  | .accept action matched rank set =>
    screenTiming i ident action
      { Screening.absent with identity := some ident, matched := matched, rank := some rank, paramSet := set } s

/-- The header read is done: the body read is issued, or the card refused (03 R50). -/
def takeHeader (i : SlotId) (header : List Byte) (s : State) : State :=
  if headerGood header then
    issueJob i (.identRead 8 (identLength header - 8)) (s.updSlot i fun c => { c with readBuffer := header })
  else transition i .refused .badIdentity s

/-- The body read is done: the whole record is judged (03 R51). -/
def takeBody (i : SlotId) (body : List Byte) (s : State) : State :=
  let ident := (s.slot i).readBuffer ++ body
  if identityValid ident then screenCard i ident s else transition i .refused .badIdentity s

/-- A completion taken in IDENTIFYING (02 R47, 03 R50 to R52). -/
def takeInIdentifying (i : SlotId) (c : Completion) (s : State) : State :=
  match c.kind, c.outcome with
  | .identRead, .done => if (s.slot i).readBuffer.isEmpty then takeHeader i c.data s else takeBody i c.data s
  | .identRead, .cardNak | .identRead, .busTimeout => takeFault i .setupBus s
  | _, _ => s

/-- The next key slot of the walk: the lowest from the walk position on that is in the mask and loaded (04 R74). -/
def nextKey (c : Slot) (keys : Vector KeySlot 4) : Option (Fin 4) :=
  (List.finRange 4).find? fun k =>
    decide (c.walkPos ≤ k.val) && (c.screening.identity.map fun r => identKeyMask r k.val).getD false && keys[k].loaded

/-- One step of the unlock walk: the next loaded key is offered, or the walk ends (04 R74, R77). The walk position after an
offer of key slot k is held as k + 1, the first key slot the walk may visit next, and stands when the walk ends (log 35,
the model's choice). -/
def walkKeys (i : SlotId) (s : State) : State :=
  match nextKey (s.slot i) s.keys with
  | some k =>
    issueJob i (.unlock k s.keys[k].key)
      (s.updSlot i fun c => { c with walkPos := k.val + 1, offers := c.offers + 1 })
  | none => transition i .refused (if (s.slot i).offers = 0 then .noKey else .keyDenied) s

/-- A DENIED answer charges the allowance, and bars the slot when it is spent (04 R76). -/
def chargeDenial (i : SlotId) (s : State) : State :=
  let charged := s.updSlot i fun c => { c with allowance := c.allowance - 1 }
  if (charged.slot i).allowance = 0 then powerOff i .barred .allowanceSpent charged else walkKeys i charged

/-- A completion taken in UNLOCKING (02 R47, 04 R73 to R78). -/
def takeInUnlocking (i : SlotId) (c : Completion) (s : State) : State :=
  match c.kind, c.outcome with
  | .statusRead, .done => if lockedBit (byteAt c.data 0) then walkKeys i s else toPowerWait i s
  | .unlock, .granted => toPowerWait i s
  | .unlock, .denied => chargeDenial i s
  | .statusRead, .cardNak | .statusRead, .busTimeout | .unlock, .cardNak | .unlock, .busTimeout =>
    takeFault i .setupBus s
  | _, _ => s

/-- The card has reported ready: CONFIGURING if a set is named, else insertion (05 R103, 06 R113). A poll issued since the
read was answered is withdrawn first, because a slot issues a job only when it has none (02 R40, log 34). -/
def takeReady (i : SlotId) (s : State) : State :=
  let free := withdrawJob i s
  match (s.slot i).screening.paramSet with
  | some n => examineSet i n (transition i .configuring .none free)
  | none => insertWindow i free

/-- A read without the ready bit: the poll that fell due meanwhile is issued (05 R102), unless a later read is still in
the engine (02 R40). -/
def pollAgain (i : SlotId) (s : State) : State :=
  if (s.slot i).pollDue && !s.engine.hasJob i then pollStatus i s else s

/-- A completion taken in READY_WAIT (02 R47, 05 R102, R103). -/
def takeInReadyWait (i : SlotId) (c : Completion) (s : State) : State :=
  match c.kind, c.outcome with
  | .statusRead, .done => if readyBit (byteAt c.data 0) then takeReady i s else pollAgain i s
  | .statusRead, .cardNak | .statusRead, .busTimeout => pollAgain i s
  | _, _ => s

/-- A BLOCK_WRITE taken DONE raises the transfer count and issues the next job (06 R114). -/
def advanceBlock (i : SlotId) (n : Fin 8) (words : Nat) (s : State) : State :=
  nextBlock i n (s.updSlot i fun c => { c with transferCount := c.transferCount + words })

/-- The end of a transfer at its COMMIT: every word of the set has been written (06 R115 to R117). -/
def endCommit (i : SlotId) (n : Fin 8) (s : State) : State := endTransfer i s.sets[n].length s

/-- A completion taken in CONFIGURING by a slot that holds a pin (02 R47, 06 R114 to R117). -/
def takeInTransfer (i : SlotId) (n : Fin 8) (c : Completion) (s : State) : State :=
  match c.kind, c.outcome with
  | .blockWrite, .done => advanceBlock i n c.words s
  | .commit, .accepted => insertWindow i (endCommit i n s)
  | .commit, .rejected => takeFault i .configRejected (endCommit i n s)
  | .commit, .cardNak | .commit, .busTimeout => takeFault i .configWrite (endCommit i n s)
  | .blockWrite, .cardNak | .blockWrite, .busTimeout => takeFault i .configWrite s
  | _, _ => s

/-- A slot takes a job completion by its state; in every other state it is discarded (02 R47, 01 R14). -/
def takeCompletion (i : SlotId) (c : Completion) (s : State) : State :=
  match (s.slot i).state with
  | .identifying => takeInIdentifying i c s
  | .unlocking => takeInUnlocking i c s
  | .readyWait => takeInReadyWait i c s
  | .configuring =>
    match (s.slot i).pin with
    | some n => takeInTransfer i n c s
    | none => s
  | .disabled | .empty | .mating | .consentWait | .powerWait | .powering | .resetHold | .roomWait | .joining | .running
  | .parked | .refused | .faulted | .cooldown | .barred | .removing => s

end Sys2Proof.Machine
end

