-- ==== Sys2Proof/Machine/Completions.lean ====
section
/-!
DEFINITION. Taking job completions: one at a time, and all that have been sent before an event that would withdraw the
slot from the engine (02 R45, R47).
-/
namespace Sys2Proof.Machine

/-- The oldest completion sent to the slot is taken (02 R42, R47). -/
def takeNextCompletion (i : SlotId) (s : State) : State :=
  match (s.slot i).inbox.completions with
  | c :: rest =>
    transmit (takeCompletion i c (s.updSlot i fun x => { x with inbox := { x.inbox with completions := rest } }))
  | [] => s

/-- A number of completions are taken, one after another. -/
def takeCompletions (i : SlotId) : Nat → State → State
  | 0, s => s
  | n + 1, s => takeCompletions i n (takeNextCompletion i s)

/-- The completions already sent to the slot are taken (02 R45, log 37): a job that has left the engine is acted on
before an event that makes an abort request for it, and the event is then taken from the new state. -/
def catchUp (i : SlotId) (s : State) : State := takeCompletions i (s.slot i).inbox.completions.length s

/-- The state from which an event is taken: caught up, when the event takes the slot out of its dealings with the
engine. -/
def catchUpIf (withdraws : Bool) (i : SlotId) (s : State) : State := if withdraws then catchUp i s else s

/-- Every slot in turn, in ascending order, takes the completions sent to it before a warm restart (02 R45, R49). -/
def catchUpAll (s : State) : State :=
  (List.finRange 12).foldl (fun u i => takeCompletions i (s.slot i).inbox.completions.length u) s

end Sys2Proof.Machine
end

