-- ==== Sys2Proof/Machine/SlotCommands.lean ====
section
/-!
DEFINITION. The host's slot commands (01 section 1.7, 03 R66, R68).
-/
namespace Sys2Proof.Machine

/-- SLOT_STATUS returns the record and changes nothing (01 R1). -/
def answerSlotStatus (slot : Byte) : State → State × Answer :=
  onSlot slot fun i s => (s, okAnswer (slotStatusBytes i (s.slot i)))

/-- SLOT_IDENTITY returns the identity as read, or EMPTY (03 R68). -/
def answerSlotIdentity (slot : Byte) : State → State × Answer :=
  onSlot slot fun i s =>
    match (s.slot i).screening.identity with
    | some ident => (s, okAnswer (u8 ident.length ++ ident))
    | none => refuseWith .empty s

/-- SLOT_CONSENT: arguments first, then the state (03 R66). -/
def answerSlotConsent (slot decision : Byte) : State → State × Answer :=
  onSlot slot fun i s =>
    match decisionOf decision with
    | none => refuseWith .badArgument s
    | some allowed =>
      if (s.slot i).state ≠ .consentWait then refuseWith .wrongState s
      else if allowed then (admitCard i s, okAnswer [])
      else (transition i .refused .hostRefused s, okAnswer [])

/-- A park by the state the slot is in (01 R20). -/
def parkSlot (i : SlotId) (s : State) : State × Answer :=
  if (s.slot i).state.parkable then (powerOff i .parked .hostPark s, okAnswer [])
  else refuseWith .wrongState s

/-- SLOT_PARK (01 R20), taken after the completions already sent to the slot (02 R45). -/
def answerSlotPark (slot : Byte) : State → State × Answer :=
  onSlot slot fun i s => parkSlot i (catchUpIf (s.slot i).state.parkable i s)

/-- SLOT_RESUME (01 R21). -/
def answerSlotResume (slot : Byte) : State → State × Answer :=
  onSlot slot fun i s =>
    if (s.slot i).state = .parked then (toPowerWait i s, okAnswer []) else refuseWith .wrongState s

/-- SLOT_RESTART (01 R22). -/
def answerSlotRestart (slot : Byte) : State → State × Answer :=
  onSlot slot fun i s =>
    match (s.slot i).state with
    | .refused | .faulted | .parked =>
      (toIdentifying i .none (s.updSlot i fun c => { c with faultCount := 0 }), okAnswer [])
    | .disabled | .empty | .mating | .identifying | .consentWait | .unlocking | .powerWait | .powering | .resetHold
    | .readyWait | .configuring | .roomWait | .joining | .running | .cooldown | .barred | .removing =>
      refuseWith .wrongState s

/-- SLOT_DISABLE: taken in every state, after the completions already sent to the slot (02 R45), and without effect in
DISABLED (01 R23). -/
def answerSlotDisable (slot : Byte) : State → State × Answer :=
  onSlot slot fun i s =>
    if (s.slot i).state = .disabled then (s, okAnswer [])
    else (powerOff i .disabled .hostDisable (catchUp i s), okAnswer [])

/-- SLOT_ENABLE (01 R24). -/
def answerSlotEnable (slot : Byte) : State → State × Answer :=
  onSlot slot fun i s =>
    if (s.slot i).state = .disabled then
      (toContactState i (s.updSlot i fun c => { c with faultCount := 0 }), okAnswer [])
    else refuseWith .wrongState s

/-- SLOT_CLEAR_BAR: the state first, then the freeze flag (01 R25, 04 R81). -/
def answerSlotClearBar (slot : Byte) : State → State × Answer :=
  onSlot slot fun i s =>
    if (s.slot i).state ≠ .barred then refuseWith .wrongState s
    else if s.policy.frozen then refuseWith .frozen s
    else
      (toContactState i (s.updSlot i fun c => { c with allowance := 3, screening := Screening.absent }), okAnswer [])

def execSlotStatus (tag slot : Byte) (s : State) : Host.Outcome State Fault Refusal :=
  whenLive (takeCommand 0x10 tag (answerSlotStatus slot)) s

def execSlotIdentity (tag slot : Byte) (s : State) : Host.Outcome State Fault Refusal :=
  whenLive (takeCommand 0x11 tag (answerSlotIdentity slot)) s

def execSlotConsent (tag slot decision : Byte) (s : State) : Host.Outcome State Fault Refusal :=
  whenLive (takeCommand 0x12 tag (answerSlotConsent slot decision)) s

def execSlotPark (tag slot : Byte) (s : State) : Host.Outcome State Fault Refusal :=
  whenLive (takeCommand 0x13 tag (answerSlotPark slot)) s

def execSlotResume (tag slot : Byte) (s : State) : Host.Outcome State Fault Refusal :=
  whenLive (takeCommand 0x14 tag (answerSlotResume slot)) s

def execSlotRestart (tag slot : Byte) (s : State) : Host.Outcome State Fault Refusal :=
  whenLive (takeCommand 0x15 tag (answerSlotRestart slot)) s

def execSlotDisable (tag slot : Byte) (s : State) : Host.Outcome State Fault Refusal :=
  whenLive (takeCommand 0x16 tag (answerSlotDisable slot)) s

def execSlotEnable (tag slot : Byte) (s : State) : Host.Outcome State Fault Refusal :=
  whenLive (takeCommand 0x17 tag (answerSlotEnable slot)) s

def execSlotClearBar (tag slot : Byte) (s : State) : Host.Outcome State Fault Refusal :=
  whenLive (takeCommand 0x18 tag (answerSlotClearBar slot)) s

end Sys2Proof.Machine
end

