-- ==== Sys2Proof/Machine/Frames.lean ====
section
/-!
DEFINITION. The message catalogue: which command a frame's KIND and payload give (10 R188, 11.2).
-/
namespace Sys2Proof.Machine

/-- A one-byte field of a payload. -/
def byteOf (p : List Byte) (i : Nat) : Byte := byteAt p i

/-- A two-byte field of a payload. -/
def wordOf (p : List Byte) (i : Nat) : Word := BitVec.ofNat 16 (fieldAt p i 2)

/-- A four-byte field of a payload. -/
def longOf (p : List Byte) (i : Nat) : Long := BitVec.ofNat 32 (fieldAt p i 4)

/-- The fields of a SET_SLOT_TIMES payload. -/
def slotTimesFields (p : List Byte) : SlotTimesFields :=
  { debounce := wordOf p 0, rampLimit := wordOf p 2, resetHold := wordOf p 4, readyTimeout := wordOf p 6,
    consentTimeout := wordOf p 8, cooldown := wordOf p 10, retryLimit := wordOf p 12 }

/-- The fields of a SET_POWER payload. -/
def powerFields (p : List Byte) : PowerFields :=
  { budget := wordOf p 0, rampLimit := wordOf p 2, margin := wordOf p 4, inrush := wordOf p 6, filter := wordOf p 8,
    railDip := wordOf p 10 }

/-- The fields of a POLICY_WRITE payload. -/
def policyFields (p : List Byte) : PolicyFields :=
  { entry := byteOf p 0, kind := byteOf p 1, pattern := longOf p 2, mask := longOf p 6, action := byteOf p 10,
    rank := byteOf p 11, set := byteOf p 12 }

/-- The fields of a REC_SET payload. -/
def recSetFields (p : List Byte) : RecSetFields :=
  { mode := byteOf p 0, pre := wordOf p 1, overlap := wordOf p 3, decimation := byteOf p 5, gateTail := wordOf p 6,
    enables := byteOf p 8, traceOut := byteOf p 9 }

/-- A command with one payload length; any other length is answered BAD_LENGTH (10 R188). -/
def sized (length : Nat) (p : List Byte) (act : State → State × Answer) : State → State × Answer :=
  if p.length = length then act else refuseWith .badLength

/-- PARAM_LOAD's payload: an even length from 6 to 224 (11.2). -/
def sizedLoad (p : List Byte) : State → State × Answer :=
  if p.length % 2 = 0 ∧ 6 ≤ p.length ∧ p.length ≤ 224 then
    answerParamLoad (byteOf p 0) (wordOf p 1) (byteOf p 3) (wordsOf (p.drop 4))
  else refuseWith .badLength

/-- The command of a frame; a KIND that is no command's is answered UNKNOWN_KIND (10 R188, 11.2). -/
def frameCommand (kind : Byte) (p : List Byte) : State → State × Answer :=
  match kind.toNat with
  | 0x01 => sized 0 p answerPartStatus
  | 0x02 => sized 0 p answerWarmRestart
  | 0x03 => sized 14 p (answerSetSlotTimes (slotTimesFields p))
  | 0x04 => sized 12 p (answerSetPower (powerFields p))
  | 0x05 => sized 7 p (answerSetCycle (byteOf p 0) (longOf p 1) (wordOf p 5))
  | 0x10 => sized 1 p (answerSlotStatus (byteOf p 0))
  | 0x11 => sized 1 p (answerSlotIdentity (byteOf p 0))
  | 0x12 => sized 2 p (answerSlotConsent (byteOf p 0) (byteOf p 1))
  | 0x13 => sized 1 p (answerSlotPark (byteOf p 0))
  | 0x14 => sized 1 p (answerSlotResume (byteOf p 0))
  | 0x15 => sized 1 p (answerSlotRestart (byteOf p 0))
  | 0x16 => sized 1 p (answerSlotDisable (byteOf p 0))
  | 0x17 => sized 1 p (answerSlotEnable (byteOf p 0))
  | 0x18 => sized 1 p (answerSlotClearBar (byteOf p 0))
  | 0x20 => sized 13 p (answerPolicyWrite (policyFields p))
  | 0x21 => sized 1 p (answerPolicyRead (byteOf p 0))
  | 0x22 => sized 1 p (answerPolicyDefault (byteOf p 0))
  | 0x23 => sized 0 p answerPolicyFreeze
  | 0x24 => sized 17 p (answerKeyLoad (byteOf p 0) (p.drop 1))
  | 0x25 => sized 1 p (answerKeyErase (byteOf p 0))
  | 0x26 => sized 0 p answerKeyStatus
  | 0x30 => sized 3 p (answerParamBegin (byteOf p 0) (wordOf p 1))
  | 0x31 => sizedLoad p
  | 0x32 => sized 1 p (answerParamStatus (byteOf p 0))
  | 0x33 => sized 1 p (answerParamFree (byteOf p 0))
  | 0x40 => sized 1 p (answerPlanRead (byteOf p 0))
  | 0x41 => sized 0 p answerCycleStatus
  | 0x50 => sized 10 p (answerRecSet (recSetFields p))
  | 0x51 => sized 0 p answerRecArm
  | 0x52 => sized 0 p answerRecStop
  | 0x53 => sized 0 p answerRecTrigger
  | 0x54 => sized 0 p answerRecEvent
  | 0x55 => sized 3 p (answerRecData (wordOf p 0) (byteOf p 2))
  | 0x56 => sized 0 p answerRecRelease
  | 0x57 => sized 0 p answerRecStatus
  | _ => refuseWith .unknownKind

end Sys2Proof.Machine
end

