-- ==== Sys2Proof/Machine/Resets.lean ====
section
/-!
DEFINITION. The resets: RESET asserted, the end of a cold reset (01 R29 and the other chapters' reset rules), and the warm
restart (01 R30, 10 R195).
-/
namespace Sys2Proof.Machine

/-- A slot while RESET is asserted: switches off, CARD_RST asserted, standby-on time unset (01 R29, 02 R48). -/
def Slot.cut (c : Slot) : Slot := { c with stbyEn := false, mainEn := false, cardRst := true, standby := .off }

/-- RESET is asserted: the lines are released and what is in flight is cut (01 R29, 02 R48, 08 R160, 09 R182, 10 R196).
What else the state holds waits for the reset's end. -/
def assertReset (s : State) : State :=
  { s with
    inReset := true
    slots := s.slots.map Slot.cut
    engine := { s.engine with current := none }
    sequencer := { s.sequencer with markLow := false, run := none }
    recorder := { s.recorder with traceOutLow := false }
    link := { s.link with tx := none, receiver := .hunting } }

def execResetAsserted (s : State) : Host.Outcome State Fault Refusal := .next (assertReset s)

/-- A slot as the cold reset ends: a contact whose raw input is made starts its debounce then (01 R29). -/
def Slot.wake (c : Slot) : Slot :=
  { Slot.reset c.earlyRaw c.lateRaw with
    debounceEarly := if c.earlyRaw then some SlotTimes.reset.debounce else none
    debounceLate := if c.lateRaw then some SlotTimes.reset.debounce else none }

/-- The cold reset ends: every block takes its cold-reset values, the RATE strap is sampled and the contact pins stand as
they are (01 R29, 10 R196). -/
def endReset (rateHigh : Bool) (s : State) : State :=
  { State.reset with
    pending := s.pending
    slots := s.slots.map Slot.wake
    link := Link.reset (if rateHigh then .rate921600 else .rate115200) }

def execColdReset (rateHigh : Bool) (s : State) : Host.Outcome State Fault Refusal := .next (endReset rateHigh s)

/-! ### Warm restart -/

/-- The port clears its own state (10 R195). -/
def clearPort (s : State) : State :=
  { s with
    slots := s.slots.map fun c => { c with transitions := 0, traceRef := none }
    link := { s.link with receiver := .hunting, replies := [], notices := [], tx := none, restartWait := false } }

/-- A slot is carried through the restart (01 R30). -/
def restartSlot (s : State) (i : SlotId) : State :=
  if (s.slot i).state.restarted then toIdentifying i .warmRestart (powerDown i s) else s

/-- The recorder stops and clears, keeping its settings and its gate (09 R183). -/
def Recorder.restart (r : Recorder) : Recorder := { r.stop.clearRing with sequence := 0, pattern := 0 }

/-- The recorder's part of the restart, with its notice if it was not STOPPED (09 R183). -/
def restartRecorder (s : State) : State :=
  let stopped := s.setRecorder s.recorder.restart
  if s.recorder.state = .stopped then stopped else postRecorder .stateChange stopped

/-- The warm restart event (10 R195): the port, then the slots in ascending order (02 R49), then the recorder. Completions
already sent to the slots are taken before it (02 R45, log 37). The walks and examinations it starts find their queues
empty (05 R106, 08 R161). -/
def performRestart (s : State) : State :=
  restartRecorder ((List.finRange 12).foldl restartSlot (clearPort (catchUpAll s)))

/-- Whether the frame on the line is the reply to WARM_RESTART: the last reply of the restart wait (10 R194). -/
def State.sendingRestartReply (s : State) : Bool :=
  s.link.restartWait && decide (s.link.replies.length = 1) &&
    (match s.link.tx with
     | some (.reply _) => true
     | some (.notice _) | none => false)

/-- The last byte of the WARM_RESTART reply has been sent; the transmitter then begins the first notice (10 R194, R195). -/
def restartSent (s : State) : State := if s.sendingRestartReply then transmit (performRestart s) else s

def execWarmRestartPerform (s : State) : Host.Outcome State Fault Refusal := whenLive restartSent s

end Sys2Proof.Machine
end

