-- ==== Sys2Proof/Machine/LinkEvents.lean ====
section
/-!
DEFINITION. The events of the service link port: bytes and frames received, frames sent (10 R186 to R191).
-/
namespace Sys2Proof.Machine

/-- The receiver takes a state. -/
def setReceiver (r : Receiver) (s : State) : State := { s with link := { s.link with receiver := r } }

/-- A frame is dropped for its length or its CRC; drops of the restart wait are not counted (10 R187, R194). -/
def dropChecked (s : State) : State :=
  if s.link.restartWait then s
  else { s with link := { s.link with checkFailures := saturate 65535 s.link.checkFailures } }

/-- The frame of the bytes after the sync byte, its last CRC byte among them, is judged and taken or dropped
(10 R186 to R188). -/
def judgeFrame (taken : List Byte) (s : State) : State :=
  let length := taken.length - 2
  let body := taken.take length
  let hunting := setReceiver .hunting s
  if fieldAt taken length 2 = (crc body).toNat then
    takeCommand (byteAt taken 1) (byteAt taken 2) (frameCommand (byteAt taken 1) (body.drop 3)) hunting
  else dropChecked hunting

/-- Whether the next byte is the second CRC byte: LEN, KIND, TAG, the payload and one CRC byte have been taken
(10 R186). -/
def awaitsLast : List Byte → Bool
  | [] => false
  | len :: rest => decide (rest.length = len.toNat + 3)

/-- A byte is taken from RXD at the end of its stop bit (10 R184, R186, R187): hunting skips all but the sync byte, a LEN above 240 drops the frame, and
the second CRC byte ends it. -/
def takeByte (b : Byte) (s : State) : State :=
  match s.link.receiver with
  | .hunting => if b = syncByte then setReceiver (.receiving []) s else s
  | .receiving [] =>
    if Config.maxPayload < b.toNat then dropChecked (setReceiver .hunting s) else setReceiver (.receiving [b]) s
  | .receiving taken =>
    if awaitsLast taken then judgeFrame (taken ++ [b]) s else setReceiver (.receiving (taken ++ [b])) s

def execReceivedByteTaken (c : Character) (s : State) : Host.Outcome State Fault Refusal := whenLive (takeByte c.byte) s

/-- The second CRC byte of a frame ends it (10 R186, R188). -/
def endFrame (b : Byte) (s : State) : State :=
  match s.link.receiver with
  | .hunting => s
  | .receiving taken => if awaitsLast taken then judgeFrame (taken ++ [b]) s else s

def execFrameReceived (c : Character) (s : State) : Host.Outcome State Fault Refusal := whenLive (endFrame c.byte) s

/-- 1 ms has passed without a start bit in a frame: dropped and, outside the restart wait, counted (10 R187, R194). -/
def abortGap (s : State) : State :=
  match s.link.receiver with
  | .hunting => s
  | .receiving _ =>
    let hunting := setReceiver .hunting s
    if s.link.restartWait then hunting
    else { hunting with link := { hunting.link with gapAborts := saturate 65535 hunting.link.gapAborts } }

def execGapAbort (s : State) : Host.Outcome State Fault Refusal := whenLive abortGap s

/-- The idle transmitter begins a frame, where the choice stands to be made (10 R191, log 10). -/
def execTxFrameBegin (s : State) : Host.Outcome State Fault Refusal := whenLive transmit s

/-- The last byte of the frame on the line has been sent: a reply leaves its queue, and the next choice is made
(10 R190, R191). The last byte of the WARM_RESTART reply is the warm restart (R194, log 11). -/
def endSending (s : State) : State :=
  match s.link.tx with
  | some (.reply _) =>
    if s.sendingRestartReply then transmit (performRestart s)
    else transmit { s with link := { s.link with tx := none, replies := s.link.replies.tail } }
  | some (.notice _) => transmit { s with link := { s.link with tx := none } }
  | none => s

def execTxFrameSent (s : State) : Host.Outcome State Fault Refusal := whenLive endSending s

end Sys2Proof.Machine
end

