-- ==== Sys2Proof/Machine/RecorderEvents.lean ====
section
/-!
DEFINITION. The events of the fault recorder (09 R162, R167 to R175, R181).
-/
namespace Sys2Proof.Machine

/-- A kept record's sequence number goes into the trace reference of its source slot (09 R174). -/
def writeTraceRef (reference : Option (SlotId × Nat)) (s : State) : State :=
  match reference with
  | some (i, n) => s.updSlot i fun c => { c with traceRef := some n }
  | none => s

/-- A recorder notice for the cause a frame left, if any (09 R181). -/
def noticeCause (cause : Option RecCause) (s : State) : State :=
  match cause with
  | some c => transmit (postRecorder c s)
  | none => s

/-- The oldest frame handed to the recorder is taken (09 R162). -/
def recorderFrame (s : State) : State :=
  match s.recorder.frames with
  | f :: rest =>
    let taken := Recorder.takeFrame { s.recorder with frames := rest } f s.sequencer.cycleCount
    noticeCause taken.2.cause (writeTraceRef taken.2.traceRef (s.setRecorder taken.1))
  | [] => s

def execRecorderFrameTaken (s : State) : Host.Outcome State Fault Refusal := whenLive recorderFrame s

/-- A trigger condition presented to the recorder is taken (09 R168, R169). -/
def arriveTrigger (t : Trigger) (s : State) : State :=
  if s.recorder.triggers.contains t then
    s.setRecorder (Recorder.takeTrigger { s.recorder with triggers := s.recorder.triggers.erase t } t).1
  else s

def execTriggerTaken (t : Trigger) (s : State) : Host.Outcome State Fault Refusal := whenLive (arriveTrigger t) s

/-- TRACE_IN has been low for 5 ticks after being high: one EXTERNAL trigger condition (09 R168). -/
def execTraceInTrigger (s : State) : Host.Outcome State Fault Refusal :=
  whenLive (presentTrigger { source := .external, slot := none }) s

/-- TRACE_OUT returns high (09 R171). -/
def endTracePulse (s : State) : State := s.setRecorder { s.recorder with traceOutLow := false }

def execTraceOutPulseEnd (s : State) : Host.Outcome State Fault Refusal := whenLive endTracePulse s

/-- The oldest gate report of a slot is taken (09 R170). -/
def arriveReport (i : SlotId) (s : State) : State :=
  match s.recorder.gateReports.find? fun g => decide (g.slot = i) with
  | some g =>
    s.setRecorder (Recorder.takeReport { s.recorder with gateReports := s.recorder.gateReports.erase g } g.entering)
  | none => s

def execGateReportTaken (i : SlotId) (s : State) : Host.Outcome State Fault Refusal := whenLive (arriveReport i) s

/-- The gate tail ends and the gate closes; a cancelled tail's expiry is discarded (09 R170). -/
def expireTail (s : State) : State :=
  if s.recorder.gateTail.isSome then s.setRecorder { s.recorder with gateTail := none, gateOpen := false } else s

def execGateTailExpiry (s : State) : Host.Outcome State Fault Refusal := whenLive expireTail s

end Sys2Proof.Machine
end

