-- ==== Sys2Proof/Machine/SequencerEvents.lean ====
section
/-!
DEFINITION. The events of the cycle sequencer (08 R149 to R156).
-/
namespace Sys2Proof.Machine

/-- In MASTER mode the next mark of a cycle under way begins (08 R149). -/
def beginMark (s : State) : State :=
  if s.sequencer.state = .running ∧ s.sequencer.next.isSome then
    { s with sequencer := { s.sequencer with markLow := true } }
  else s

def execMarkBegin (s : State) : Host.Outcome State Fault Refusal := whenLive beginMark s

/-- In MASTER mode the mark being driven ends: a cycle start (08 R149). -/
def endMark (s : State) : State :=
  if s.sequencer.state = .running ∧ s.sequencer.markLow then startCycle s else s

def execCycleStart (s : State) : Host.Outcome State Fault Refusal := whenLive endMark s

/-- The states of FOLLOWER mode (08 R138). -/
def SequencerState.follows : SequencerState → Bool
  | .seeking | .locked | .suspended => true
  | .stopped | .running => false

/-- A received pulse rises (08 R150): the end of a pulse already taken at 61 ticks is ignored, a short one is a glitch,
and the others are ILLEGAL or valid by their width. -/
def endPulse (width sinceStart : Nat) (s : State) : State :=
  if !s.sequencer.state.follows then s
  else if s.sequencer.longPulse then { s with sequencer := { s.sequencer with longPulse := false } }
  else if width < 5 then s
  else if width < 40 then takeIllegal s
  else if width ≤ 60 then takeMark sinceStart s
  else s

def execMarkPulseEnd (width sinceStart : Nat) (s : State) : Host.Outcome State Fault Refusal :=
  whenLive (endPulse width sinceStart) s

/-- A received pulse reaches 61 ticks: ILLEGAL once (08 R150). -/
def longPulse (s : State) : State :=
  if s.sequencer.state.follows ∧ s.sequencer.longPulse = false then
    takeIllegal { s with sequencer := { s.sequencer with longPulse := true } }
  else s

def execMarkLongPulse (s : State) : Host.Outcome State Fault Refusal := whenLive longPulse s

/-- No valid mark has ended by C + tolerance in LOCKED (08 R151). -/
def loseMark (s : State) : State :=
  if s.sequencer.state = .locked then
    transmit (postCycle .lost (suspend { s with sequencer := { s.sequencer with
      lostCount := saturate 65535 s.sequencer.lostCount } }))
  else s

def execLostTimeout (s : State) : Host.Outcome State Fault Refusal := whenLive loseMark s

/-- Whether the sequencer trusts the cycle: RUNNING or LOCKED (08 R154). -/
def SequencerState.trusted : SequencerState → Bool
  | .running | .locked => true
  | .stopped | .seeking | .suspended => false

/-- The start tick of the next window of the cycle: SEL is asserted for an unmuted window of a RUNNING slot in a trusted
cycle, else the window's time passes (08 R154). -/
def startWindow (s : State) : State :=
  match s.sequencer.next, s.sequencer.run with
  | some k, none =>
    match s.sequencer.active[k]? with
    | none => s
    | some w =>
      let runs := !w.muted && decide ((s.slot w.slot).state = .running) && s.sequencer.state.trusted
      { s with sequencer := { s.sequencer with
        next := some (k + 1), run := if runs then some (WindowRun.begin w) else none } }
  | _, _ => s

def execWindowStart (s : State) : Host.Outcome State Fault Refusal := whenLive startWindow s

/-- The window being run changes. -/
def updRun (f : WindowRun → WindowRun) (s : State) : State :=
  { s with sequencer := { s.sequencer with run := s.sequencer.run.map f } }

def execAccessPartEnd (s : State) : Host.Outcome State Fault Refusal := whenLive (updRun WindowRun.endPart) s

def execStrobeTickEnd (rdyHigh : Bool) (s : State) : Host.Outcome State Fault Refusal :=
  whenLive (updRun (WindowRun.strobeTick rdyHigh)) s

/-- A run window reaches its gap: SEL is deasserted and the outcome sent to its slot (08 R156). -/
def reachGap (s : State) : State :=
  match s.sequencer.run with
  | none => s
  | some run =>
    let ended := { s with sequencer := { s.sequencer with run := none } }
    ended.updSlot run.slot fun c => { c with inbox := { c.inbox with
      outcomes := c.inbox.outcomes ++ [if run.overrun then WindowOutcome.overrun else WindowOutcome.clean] } }

def execWindowGapStart (s : State) : Host.Outcome State Fault Refusal := whenLive reachGap s

end Sys2Proof.Machine
end

