-- ==== Sys2Proof/Machine/SlotEvents.lean ====
section
/-!
DEFINITION. The events of the slot controllers: contacts, timers, monitor frames, and what other blocks send them.
-/
namespace Sys2Proof.Machine

/-! ### Contacts (01 R5, R6, R10 to R13) -/

/-- The raw level of a contact. -/
def Slot.raw (c : Slot) : Contact → Bool
  | .early => c.earlyRaw
  | .late => c.lateRaw

/-- The debounced state of a contact. -/
def Slot.debounced (c : Slot) : Contact → Bool
  | .early => c.early
  | .late => c.late

/-- The debounce timer of a contact. -/
def Slot.debounceTimer (c : Slot) : Contact → Option Nat
  | .early => c.debounceEarly
  | .late => c.debounceLate

/-- A contact's pin takes a level. -/
def Slot.setRaw (c : Slot) (contact : Contact) (made : Bool) : Slot :=
  match contact with
  | .early => { c with earlyRaw := made }
  | .late => { c with lateRaw := made }

/-- A contact's debounce timer is started or cancelled. -/
def Slot.setDebounce (c : Slot) (contact : Contact) (timer : Option Nat) : Slot :=
  match contact with
  | .early => { c with debounceEarly := timer }
  | .late => { c with debounceLate := timer }

/-- A contact's debounced state takes a value, its timer having ended. -/
def Slot.setDebounced (c : Slot) (contact : Contact) (made : Bool) : Slot :=
  match contact with
  | .early => { c with early := made, debounceEarly := none }
  | .late => { c with late := made, debounceLate := none }

/-- The debounce timer runs exactly while the raw input differs from the debounced state (01 R5). -/
def Slot.followRaw (c : Slot) (contact : Contact) (time : Nat) : Slot :=
  c.setDebounce contact (if c.raw contact = c.debounced contact then none else some time)

/-- A raw change of a contact: a LATE break in a card-present state is removal at once, any other change starts or
cancels the debounce (01 R5, R10). -/
def changeContact (i : SlotId) (contact : Contact) (made : Bool) (s : State) : State :=
  let moved := s.updSlot i fun c => c.setRaw contact made
  if contact = .late ∧ made = false ∧ (s.slot i).state.cardPresent then transmit (removeCard i moved)
  else moved.updSlot i fun c => c.followRaw contact s.times.debounce

/-- CONTACT_RAW_CHANGE: a removal is taken after the completions already sent to the slot (02 R45). While the part is held
in reset the pin alone moves (log 5). -/
def execContactRawChange (i : SlotId) (contact : Contact) (made : Bool) (s : State) :
    Host.Outcome State Fault Refusal :=
  .next (if (s.slot i).raw contact = made then s
    else if s.inReset then s.updSlot i fun c => c.setRaw contact made
    else changeContact i contact made
      (catchUpIf (decide (contact = .late) && !made && (s.slot i).state.cardPresent) i s))

/-- The slot returns to EMPTY and its fault count is cleared (01 R12). -/
def cardGone (i : SlotId) (s : State) : State :=
  transition i .empty .none (s.updSlot i fun c => { c with faultCount := 0 })

/-- A debounced EARLY break in a card-present state (01 R11). -/
def earlyBreak (i : SlotId) (s : State) : State :=
  powerOff i .empty .earlyBreak (s.updSlot i fun c => { c with faultCount := 0 })

/-- The slot acts on a changed debounced contact by its state (01 R6, R11 to R13). A LATE found open by its debounce in a
card-present state is removal (log 15). -/
def actOnContact (i : SlotId) (contact : Contact) (made : Bool) (s : State) : State :=
  match (s.slot i).state, contact, made with
  | .empty, .early, true =>
    if (s.slot i).late then toIdentifying i .none (transition i .mating .none s) else transition i .mating .none s
  | .mating, .late, true => toIdentifying i .none s
  | .mating, .early, false => transition i .empty .none s
  | .removing, .early, false => cardGone i s
  | .removing, .late, true => toIdentifying i .none s
  | .empty, _, _ | .mating, _, _ | .removing, _, _ | .disabled, _, _ | .barred, _, _ => s
  | _, .early, false => earlyBreak i s
  | _, .late, false => removeCard i s
  | _, _, true => s

/-- A contact's debounce timer ends: the debounced state takes the raw value and the slot acts on it (01 R5), a break in a
card-present state after the completions already sent to the slot (02 R45). -/
def expireDebounce (i : SlotId) (contact : Contact) (s : State) : State :=
  if ((s.slot i).debounceTimer contact).isSome then
    let made := (s.slot i).raw contact
    let ready := catchUpIf (!made && (s.slot i).state.cardPresent) i s
    transmit (actOnContact i contact made (ready.updSlot i fun c => c.setDebounced contact made))
  else s

def execDebounceExpiry (i : SlotId) (contact : Contact) (s : State) : Host.Outcome State Fault Refusal :=
  whenLive (expireDebounce i contact) s

/-! ### Timers (01 R27) -/

/-- The cooldown ends: IDENTIFYING after SETUP_BUS, else POWER_WAIT (01 R17). -/
def expireCooldown (i : SlotId) (s : State) : State :=
  if (s.slot i).state = .cooldown ∧ (s.slot i).timers.cooldown.isSome then
    transmit (if (s.slot i).reason = .setupBus then toIdentifying i .none s else toPowerWait i s)
  else s

def execCooldownExpiry (i : SlotId) (s : State) : Host.Outcome State Fault Refusal := whenLive (expireCooldown i) s

/-- The consent timer ends (03 R67). -/
def expireConsent (i : SlotId) (s : State) : State :=
  if (s.slot i).state = .consentWait ∧ (s.slot i).timers.consent.isSome then
    transmit (transition i .refused .consentTimeout s)
  else s

def execConsentTimeout (i : SlotId) (s : State) : Host.Outcome State Fault Refusal := whenLive (expireConsent i) s

/-- The ramp time limit ends (05 R98). -/
def expireRamp (i : SlotId) (s : State) : State :=
  if (s.slot i).state = .powering ∧ (s.slot i).timers.ramp.isSome then transmit (takeFault i .pgTimeout s)
  else s

def execRampTimerExpiry (i : SlotId) (s : State) : Host.Outcome State Fault Refusal := whenLive (expireRamp i) s

/-- Entry to READY_WAIT: the ready timer and the first poll (05 R102). -/
def toReadyWait (i : SlotId) (s : State) : State :=
  pollStatus i ((transition i .readyWait .none s).updSlot i fun c =>
    { c with timers := { c.timers with ready := some s.times.readyTimeout } })

/-- The reset hold ends (05 R101). -/
def expireResetHold (i : SlotId) (s : State) : State :=
  if (s.slot i).state = .resetHold ∧ (s.slot i).timers.resetHold.isSome then transmit (toReadyWait i s)
  else s

def execResetHoldExpiry (i : SlotId) (s : State) : Host.Outcome State Fault Refusal :=
  whenLive (expireResetHold i) s

/-- The poll interval ends: a new read, or one noted as due while the previous is in the engine (05 R102). -/
def expirePoll (i : SlotId) (s : State) : State :=
  if (s.slot i).state = .readyWait ∧ (s.slot i).timers.poll.isSome then
    if s.engine.hasJob i then
      s.updSlot i fun c => { c with pollDue := true, timers := { c.timers with poll := none } }
    else pollStatus i s
  else s

def execPollIntervalExpiry (i : SlotId) (s : State) : Host.Outcome State Fault Refusal := whenLive (expirePoll i) s

/-- The ready timer ends; a completion already sent is taken after the fault and discarded, the expiry coming first
(05 R104). -/
def expireReady (i : SlotId) (s : State) : State :=
  if (s.slot i).state = .readyWait ∧ (s.slot i).timers.ready.isSome then transmit (takeFault i .notReady s)
  else s

def execReadyTimeout (i : SlotId) (s : State) : Host.Outcome State Fault Refusal := whenLive (expireReady i) s

/-! ### Job completions (02 R47) -/

def execJobCompletionTaken (i : SlotId) (s : State) : Host.Outcome State Fault Refusal :=
  whenLive (takeNextCompletion i) s

/-! ### Monitor frames (05 R84, R96, R97, R99) -/

/-- A run count after a frame (05 R84). -/
def countRun (holds : Bool) (run : Nat) : Nat := if holds then run + 1 else 0

/-- The ramp has succeeded: RESET_HOLD with its timer and overload threshold, the ramp share given back (05 R96). -/
def rampSuccess (i : SlotId) (s : State) : State :=
  let held := (transition i .resetHold .none s).updSlot i fun c =>
    { c with overCurrentRun := 0, pgGoodRun := 0, pgLostRun := 0,
             threshold := some (overloadThreshold c.power s.monitor.margin),
             timers := { c.timers with resetHold := some s.times.resetHold } }
  examine { held with arbiter := { held.arbiter with ramping := held.arbiter.ramping - 1 } }

/-- A fault that presents a trigger condition in the same event (05 R97, R99). -/
def faultWithTrigger (i : SlotId) (code : Reason) (source : TriggerSource) (s : State) : State :=
  presentTrigger { source := source, slot := some i } (takeFault i code s)

/-- The pattern latch takes the slot's bit for a frame above the threshold (05 R84). -/
def notePattern (above : Bool) (i : SlotId) (s : State) : State := if above then setPattern i s else s

/-- A frame taken in POWERING: an INRUSH comes before a ramp success (05 R96, R97). -/
def frameInPowering (i : SlotId) (f : MonitorSample) (s : State) : State :=
  let above := decide (s.monitor.inrush < f.currents[i].toNat)
  let counted := notePattern above i (s.updSlot i fun c =>
    { c with overCurrentRun := countRun above c.overCurrentRun,
             pgGoodRun := countRun (f.pg.getLsbD i.val) c.pgGoodRun })
  if s.monitor.filter ≤ (counted.slot i).overCurrentRun then
    transmit (faultWithTrigger i .inrush .slotOvercurrent counted)
  else if s.monitor.filter ≤ (counted.slot i).pgGoodRun then transmit (rampSuccess i counted)
  else counted

/-- The runs of a slot in a checked state after a frame (05 R84). -/
def countInService (i : SlotId) (f : MonitorSample) (s : State) : State :=
  let above := decide (((s.slot i).threshold.getD 4095) < f.currents[i].toNat)
  notePattern above i (s.updSlot i fun c =>
    { c with overCurrentRun := countRun above c.overCurrentRun,
             pgLostRun := countRun (!f.pg.getLsbD i.val) c.pgLostRun })

/-- A frame taken in a checked state after POWERING: an OVERLOAD comes before a PG_LOST (05 R99). -/
def frameInService (i : SlotId) (f : MonitorSample) (s : State) : State :=
  let counted := countInService i f s
  if s.monitor.filter ≤ (counted.slot i).overCurrentRun then
    transmit (faultWithTrigger i .overload .slotOvercurrent counted)
  else if s.monitor.filter ≤ (counted.slot i).pgLostRun then
    transmit (faultWithTrigger i .pgLost .slotPowerLost counted)
  else counted

/-- Whether a frame is a fault of a slot in a checked state (05 R99). -/
def frameFaults (i : SlotId) (f : MonitorSample) (s : State) : Bool :=
  let c := (countInService i f s).slot i
  (s.slot i).state.checked &&
    (decide (s.monitor.filter ≤ c.overCurrentRun) || decide (s.monitor.filter ≤ c.pgLostRun))

/-- A slot acts on a frame by its state (05 R84). -/
def takeFrame (i : SlotId) (f : MonitorSample) (s : State) : State :=
  if (s.slot i).state = .powering then frameInPowering i f s
  else if (s.slot i).state.checked then frameInService i f s
  else s

/-- The oldest frame handed to the slot is taken (05 R83); one that is a fault in a checked state, after the completions
already sent to the slot (02 R45). -/
def takeNextFrame (i : SlotId) (s : State) : State :=
  match (s.slot i).inbox.frames with
  | f :: rest =>
    takeFrame i f.sample ((catchUpIf (frameFaults i f.sample s) i s).updSlot i fun x =>
      { x with inbox := { x.inbox with frames := rest } })
  | [] => s

def execSlotFrameTaken (i : SlotId) (s : State) : Host.Outcome State Fault Refusal := whenLive (takeNextFrame i) s

/-! ### Announcements, adoption reports, window outcomes -/

/-- A waiting slot takes the announcement of its set (06 R112). -/
def takeAnnouncement (i : SlotId) (n : Fin 8) (s : State) : State :=
  let c := s.slot i
  if c.state = .configuring ∧ c.pin = none ∧ c.screening.paramSet = some n ∧ s.sets[n].state = .ready then
    transmit (examineSet i n s)
  else s

/-- The oldest announcement sent to the slot is taken. -/
def takeNextAnnouncement (i : SlotId) (s : State) : State :=
  match (s.slot i).inbox.announcements with
  | n :: rest =>
    takeAnnouncement i n (s.updSlot i fun x => { x with inbox := { x.inbox with announcements := rest } })
  | [] => s

def execSetReadyAnnouncement (i : SlotId) (s : State) : Host.Outcome State Fault Refusal :=
  whenLive (takeNextAnnouncement i) s

/-- A slot takes an adoption report: RUNNING from JOINING, discarded elsewhere (08 R147). -/
def takeAdoption (i : SlotId) (s : State) : State :=
  if (s.slot i).inbox.adoptionReports = 0 then s
  else
    let taken := s.updSlot i fun x =>
      { x with inbox := { x.inbox with adoptionReports := x.inbox.adoptionReports - 1 } }
    if (s.slot i).state = .joining then transmit (transition i .running .none taken) else taken

def execAdoptionReportTaken (i : SlotId) (s : State) : Host.Outcome State Fault Refusal :=
  whenLive (takeAdoption i) s

/-- A window outcome in RUNNING: clean clears the overrun count, the third overrun in a row is a fault (08 R156). -/
def actOnOutcome (i : SlotId) (o : WindowOutcome) (s : State) : State :=
  match o with
  | .clean => s.updSlot i fun c => { c with overruns := 0 }
  | .overrun =>
    let counted := s.updSlot i fun c => { c with overruns := c.overruns + 1 }
    if 3 ≤ (counted.slot i).overruns then transmit (takeFault i .windowOverrun counted) else counted

/-- The oldest window outcome sent to the slot is taken; discarded outside RUNNING (08 R156). -/
def takeNextOutcome (i : SlotId) (s : State) : State :=
  match (s.slot i).inbox.outcomes with
  | o :: rest =>
    let taken := s.updSlot i fun x => { x with inbox := { x.inbox with outcomes := rest } }
    if (s.slot i).state = .running then actOnOutcome i o taken else taken
  | [] => s

def execWindowOutcomeTaken (i : SlotId) (s : State) : Host.Outcome State Fault Refusal :=
  whenLive (takeNextOutcome i) s

end Sys2Proof.Machine
end

