-- ==== Sys2Proof/Machine/Dispatch.lean ====
section
/-!
DEFINITION. One arm per command of the table: the meaning each command has.
-/
namespace Sys2Proof.Machine

def exec (i : Instr) (s : State) : Host.Outcome State Fault Refusal :=
  match i with
  | .coldReset rateHigh => Sys2Proof.Machine.execColdReset rateHigh s
  | .partStatus tag => Sys2Proof.Machine.execPartStatus tag s
  | .warmRestart tag => Sys2Proof.Machine.execWarmRestart tag s
  | .warmRestartPerform => Sys2Proof.Machine.execWarmRestartPerform s
  | .setSlotTimes tag v => Sys2Proof.Machine.execSetSlotTimes tag v s
  | .setPower tag v => Sys2Proof.Machine.execSetPower tag v s
  | .setCycle tag mode length tolerance => Sys2Proof.Machine.execSetCycle tag mode length tolerance s
  | .slotStatus tag slot => Sys2Proof.Machine.execSlotStatus tag slot s
  | .slotIdentity tag slot => Sys2Proof.Machine.execSlotIdentity tag slot s
  | .slotConsent tag slot decision => Sys2Proof.Machine.execSlotConsent tag slot decision s
  | .slotPark tag slot => Sys2Proof.Machine.execSlotPark tag slot s
  | .slotResume tag slot => Sys2Proof.Machine.execSlotResume tag slot s
  | .slotRestart tag slot => Sys2Proof.Machine.execSlotRestart tag slot s
  | .slotDisable tag slot => Sys2Proof.Machine.execSlotDisable tag slot s
  | .slotEnable tag slot => Sys2Proof.Machine.execSlotEnable tag slot s
  | .slotClearBar tag slot => Sys2Proof.Machine.execSlotClearBar tag slot s
  | .policyWrite tag v => Sys2Proof.Machine.execPolicyWrite tag v s
  | .policyRead tag entry => Sys2Proof.Machine.execPolicyRead tag entry s
  | .policyDefault tag action => Sys2Proof.Machine.execPolicyDefault tag action s
  | .policyFreeze tag => Sys2Proof.Machine.execPolicyFreeze tag s
  | .keyLoad tag keySlot key => Sys2Proof.Machine.execKeyLoad tag keySlot key s
  | .keyErase tag keySlot => Sys2Proof.Machine.execKeyErase tag keySlot s
  | .keyStatus tag => Sys2Proof.Machine.execKeyStatus tag s
  | .paramBegin tag n length => Sys2Proof.Machine.execParamBegin tag n length s
  | .paramLoad tag n offset count words => Sys2Proof.Machine.execParamLoad tag n offset count words s
  | .paramStatus tag n => Sys2Proof.Machine.execParamStatus tag n s
  | .paramFree tag n => Sys2Proof.Machine.execParamFree tag n s
  | .planRead tag position => Sys2Proof.Machine.execPlanRead tag position s
  | .cycleStatus tag => Sys2Proof.Machine.execCycleStatus tag s
  | .recSet tag v => Sys2Proof.Machine.execRecSet tag v s
  | .recArm tag => Sys2Proof.Machine.execRecArm tag s
  | .recStop tag => Sys2Proof.Machine.execRecStop tag s
  | .recTrigger tag => Sys2Proof.Machine.execRecTrigger tag s
  | .recEvent tag => Sys2Proof.Machine.execRecEvent tag s
  | .recStatus tag => Sys2Proof.Machine.execRecStatus tag s
  | .recData tag offset count => Sys2Proof.Machine.execRecData tag offset count s
  | .recRelease tag => Sys2Proof.Machine.execRecRelease tag s
  | .frameReceived lastCrcByte => Sys2Proof.Machine.execFrameReceived lastCrcByte s
  | .gapAbort => Sys2Proof.Machine.execGapAbort s
  | .txFrameSent => Sys2Proof.Machine.execTxFrameSent s
  | .txFrameBegin => Sys2Proof.Machine.execTxFrameBegin s
  | .contactRawChange slot contact made => Sys2Proof.Machine.execContactRawChange slot contact made s
  | .debounceExpiry slot contact => Sys2Proof.Machine.execDebounceExpiry slot contact s
  | .cooldownExpiry slot => Sys2Proof.Machine.execCooldownExpiry slot s
  | .settleExpiry slot => Sys2Proof.Machine.execSettleExpiry slot s
  | .jobComplete how => Sys2Proof.Machine.execJobComplete how s
  | .busTimeout late => Sys2Proof.Machine.execBusTimeout late s
  | .jobCompletionTaken slot => Sys2Proof.Machine.execJobCompletionTaken slot s
  | .consentTimeout slot => Sys2Proof.Machine.execConsentTimeout slot s
  | .monitorFrame sample => Sys2Proof.Machine.execMonitorFrame sample s
  | .slotFrameTaken slot => Sys2Proof.Machine.execSlotFrameTaken slot s
  | .rampTimerExpiry slot => Sys2Proof.Machine.execRampTimerExpiry slot s
  | .resetHoldExpiry slot => Sys2Proof.Machine.execResetHoldExpiry slot s
  | .pollIntervalExpiry slot => Sys2Proof.Machine.execPollIntervalExpiry slot s
  | .readyTimeout slot => Sys2Proof.Machine.execReadyTimeout slot s
  | .setReadyAnnouncement slot => Sys2Proof.Machine.execSetReadyAnnouncement slot s
  | .markBegin => Sys2Proof.Machine.execMarkBegin s
  | .cycleStart => Sys2Proof.Machine.execCycleStart s
  | .markPulseEnd width sinceStart => Sys2Proof.Machine.execMarkPulseEnd width sinceStart s
  | .markLongPulse => Sys2Proof.Machine.execMarkLongPulse s
  | .lostTimeout => Sys2Proof.Machine.execLostTimeout s
  | .adoptionReportTaken slot => Sys2Proof.Machine.execAdoptionReportTaken slot s
  | .windowStart => Sys2Proof.Machine.execWindowStart s
  | .accessPartEnd => Sys2Proof.Machine.execAccessPartEnd s
  | .strobeTickEnd rdyHigh => Sys2Proof.Machine.execStrobeTickEnd rdyHigh s
  | .windowGapStart => Sys2Proof.Machine.execWindowGapStart s
  | .windowOutcomeTaken slot => Sys2Proof.Machine.execWindowOutcomeTaken slot s
  | .recorderFrameTaken => Sys2Proof.Machine.execRecorderFrameTaken s
  | .triggerTaken trigger => Sys2Proof.Machine.execTriggerTaken trigger s
  | .traceInTrigger => Sys2Proof.Machine.execTraceInTrigger s
  | .traceOutPulseEnd => Sys2Proof.Machine.execTraceOutPulseEnd s
  | .gateReportTaken slot => Sys2Proof.Machine.execGateReportTaken slot s
  | .gateTailExpiry => Sys2Proof.Machine.execGateTailExpiry s
  | .resetAsserted => Sys2Proof.Machine.execResetAsserted s
  | .receivedByteTaken character => Sys2Proof.Machine.execReceivedByteTaken character s

end Sys2Proof.Machine
end

