-- ==== Sys2Proof/Machine/HostFrames.lean ====
section
/-!
DEFINITION. The frame of each host command: KIND, TAG and payload bytes by the message catalogue (11.2). The events have
none.
-/
namespace Sys2Proof.Machine

/-- A two-byte field of a payload. -/
def field16 (w : Word) : List Byte := u16 w.toNat

/-- A four-byte field of a payload. -/
def field32 (w : Long) : List Byte := u32 w.toNat

/-- The payload of SET_SLOT_TIMES. -/
def slotTimesPayload (v : SlotTimesFields) : List Byte :=
  field16 v.debounce ++ field16 v.rampLimit ++ field16 v.resetHold ++ field16 v.readyTimeout ++
    field16 v.consentTimeout ++ field16 v.cooldown ++ field16 v.retryLimit

/-- The payload of SET_POWER. -/
def powerPayload (v : PowerFields) : List Byte :=
  field16 v.budget ++ field16 v.rampLimit ++ field16 v.margin ++ field16 v.inrush ++ field16 v.filter ++
    field16 v.railDip

/-- The payload of POLICY_WRITE. -/
def policyPayload (v : PolicyFields) : List Byte :=
  v.entry :: v.kind :: (field32 v.pattern ++ field32 v.mask ++ [v.action, v.rank, v.set])

/-- The payload of REC_SET. -/
def recSetPayload (v : RecSetFields) : List Byte :=
  v.mode :: (field16 v.pre ++ field16 v.overlap ++ [v.decimation] ++ field16 v.gateTail ++ [v.enables, v.traceOut])

/-- A host command's KIND, TAG and payload. -/
def hostFrame : Instr → Option (Byte × Byte × List Byte)
  | .partStatus tag => some (0x01, tag, [])
  | .warmRestart tag => some (0x02, tag, [])
  | .setSlotTimes tag v => some (0x03, tag, slotTimesPayload v)
  | .setPower tag v => some (0x04, tag, powerPayload v)
  | .setCycle tag mode length tolerance => some (0x05, tag, mode :: (field32 length ++ field16 tolerance))
  | .slotStatus tag slot => some (0x10, tag, [slot])
  | .slotIdentity tag slot => some (0x11, tag, [slot])
  | .slotConsent tag slot decision => some (0x12, tag, [slot, decision])
  | .slotPark tag slot => some (0x13, tag, [slot])
  | .slotResume tag slot => some (0x14, tag, [slot])
  | .slotRestart tag slot => some (0x15, tag, [slot])
  | .slotDisable tag slot => some (0x16, tag, [slot])
  | .slotEnable tag slot => some (0x17, tag, [slot])
  | .slotClearBar tag slot => some (0x18, tag, [slot])
  | .policyWrite tag v => some (0x20, tag, policyPayload v)
  | .policyRead tag entry => some (0x21, tag, [entry])
  | .policyDefault tag action => some (0x22, tag, [action])
  | .policyFreeze tag => some (0x23, tag, [])
  | .keyLoad tag keySlot key => some (0x24, tag, keySlot :: key)
  | .keyErase tag keySlot => some (0x25, tag, [keySlot])
  | .keyStatus tag => some (0x26, tag, [])
  | .paramBegin tag set length => some (0x30, tag, set :: field16 length)
  | .paramLoad tag set offset count words =>
    some (0x31, tag, set :: (field16 offset ++ [count] ++ words.flatMap field16))
  | .paramStatus tag set => some (0x32, tag, [set])
  | .paramFree tag set => some (0x33, tag, [set])
  | .planRead tag position => some (0x40, tag, [position])
  | .cycleStatus tag => some (0x41, tag, [])
  | .recSet tag v => some (0x50, tag, recSetPayload v)
  | .recArm tag => some (0x51, tag, [])
  | .recStop tag => some (0x52, tag, [])
  | .recTrigger tag => some (0x53, tag, [])
  | .recEvent tag => some (0x54, tag, [])
  | .recData tag offset count => some (0x55, tag, field16 offset ++ [count])
  | .recRelease tag => some (0x56, tag, [])
  | .recStatus tag => some (0x57, tag, [])
  | .coldReset _ | .warmRestartPerform | .frameReceived _ | .gapAbort | .txFrameSent | .txFrameBegin
  | .contactRawChange _ _ _ | .debounceExpiry _ _ | .cooldownExpiry _ | .settleExpiry _ | .jobComplete _
  | .busTimeout _ | .jobCompletionTaken _ | .consentTimeout _ | .monitorFrame _ | .slotFrameTaken _
  | .rampTimerExpiry _ | .resetHoldExpiry _ | .pollIntervalExpiry _ | .readyTimeout _ | .setReadyAnnouncement _
  | .markBegin | .cycleStart | .markPulseEnd _ _ | .markLongPulse | .lostTimeout | .adoptionReportTaken _
  | .windowStart | .accessPartEnd | .strobeTickEnd _ | .windowGapStart | .windowOutcomeTaken _
  | .recorderFrameTaken | .triggerTaken _ | .traceInTrigger | .traceOutPulseEnd | .gateReportTaken _
  | .gateTailExpiry | .resetAsserted | .receivedByteTaken _ => none

end Sys2Proof.Machine
end

