-- ==== Sys2Proof/Safety.lean ====
section
/-!
DEFINITION. The vocabulary of the statements: when a host command is taken and what a reply adds, and the safety
properties that the manual gives of the whole machine, block by block, each as a property of one state.
-/
namespace Sys2Proof.Machine

/-! ### Taking a command -/

/-- A valid host command is taken: RESET is not asserted, no restart wait is held and the reply queue has a place
(10 R190, R194). -/
def State.takes (s : State) : Prop :=
  s.inReset = false ∧ s.link.restartWait = false ∧ s.link.replies.length < 4

/-- The state with one more reply at the queue's tail: KIND and TAG of the command, a status and data (10 R189), and the
transmitter's choice made (R191). -/
def State.replied (s : State) (kind tag : Byte) (status : Status) (data : List Byte) : State :=
  transmit { s with link := { s.link with
    replies := s.link.replies ++ [{ kind := kind ||| 0x80, tag := tag, payload := status.code :: data }] } }

/-- The byte that names a slot. -/
def slotByte (i : SlotId) : Byte := BitVec.ofNat 8 i.val

/-- A sequence of commands, one after another, stopping at the first that does not answer a next state. -/
def execAll : List Instr → State → Host.Outcome State Fault Refusal
  | [], s => .next s
  | c :: rest, s =>
    match exec c s with
    | .next t => execAll rest t
    | .fault f => .fault f
    | .refused r => .refused r

/-- Every completion already sent to slot i is taken, one after another, which leaves u (02 R45). -/
def State.caughtUp (s : State) (i : SlotId) (u : State) : Prop :=
  execAll (List.replicate (s.slot i).inbox.completions.length (.jobCompletionTaken i)) s = .next u

/-- The payload lengths of a command kind by the message catalogue (11.2); PARAM_LOAD allows every even length from 6 to
224. A kind that is no command's has none. -/
def allowedLengths (kind : Nat) : List Nat :=
  if kind = 0x31 then (List.range 110).map fun n => 6 + 2 * n
  else if kind ∈ [0x01, 0x02, 0x23, 0x26, 0x41, 0x51, 0x52, 0x53, 0x54, 0x56, 0x57] then [0]
  else if kind ∈ [0x10, 0x11, 0x13, 0x14, 0x15, 0x16, 0x17, 0x18, 0x21, 0x22, 0x25, 0x32, 0x33, 0x40] then [1]
  else if kind = 0x12 then [2]
  else if kind ∈ [0x30, 0x55] then [3]
  else if kind = 0x05 then [7]
  else if kind = 0x50 then [10]
  else if kind = 0x04 then [12]
  else if kind = 0x20 then [13]
  else if kind = 0x03 then [14]
  else if kind = 0x24 then [17]
  else []

/-! ### What one slot's event leaves alone -/

/-- Every job the engine holds: in progress, queued and deferred. -/
def Engine.jobs (e : Engine) : List Job := (e.current.map CurrentJob.job).toList ++ e.queue ++ e.deferred

/-- The notice of a slot waits with the record as it stands (01 R28). -/
def State.posted (t : State) (i : SlotId) : Prop :=
  Notice.slot i (t.slot i).state (t.slot i).reason (t.slot i).transitions (t.slot i).faultCount ∈ t.link.notices

/-- What an event of slot i leaves alone: every setting, the policy, the keys, the sets but for pin counts, the
sequencer but for the slot's own window, the recorder but for gate reports, the link but for replies and notices, the
other slots' jobs, windows and active windows, and every other slot that waits in neither queue. -/
structure SlotFrame (i : SlotId) (s t : State) : Prop where
  pending : t.pending = s.pending
  inReset : t.inReset = s.inReset
  times : t.times = s.times
  policy : t.policy = s.policy
  keys : t.keys = s.keys
  monitor : t.monitor = s.monitor
  budget : t.arbiter.budget = s.arbiter.budget
  rampLimit : t.arbiter.rampLimit = s.arbiter.rampLimit
  settings : t.planner.settings = s.planner.settings
  sets : ∀ n : Fin 8, { t.sets[n] with pins := s.sets[n].pins } = s.sets[n]
  sequencer : { t.sequencer with active := s.sequencer.active, run := s.sequencer.run } = s.sequencer
  recorder : { t.recorder with gateReports := s.recorder.gateReports } = s.recorder
  link : { t.link with replies := s.link.replies, notices := s.link.notices } = s.link
  jobs : t.engine.jobs.filter (fun j => decide (j.slot ≠ i)) = s.engine.jobs.filter fun j => decide (j.slot ≠ i)
  windows : ∀ w ∈ s.planner.plan, w.slot ≠ i → w ∈ t.planner.plan
  active : t.sequencer.active.filter (fun w => decide (w.slot ≠ i)) =
    s.sequencer.active.filter fun w => decide (w.slot ≠ i)
  run : t.sequencer.run.filter (fun r => decide (r.slot ≠ i)) = s.sequencer.run.filter fun r => decide (r.slot ≠ i)
  powerQueue : ∀ j, j ≠ i → j ∈ t.arbiter.queue.map PowerEntry.slot → j ∈ s.arbiter.queue.map PowerEntry.slot
  roomQueue : ∀ j, j ≠ i → j ∈ t.planner.room → j ∈ s.planner.room
  slots : ∀ j, j ≠ i → j ∉ s.arbiter.queue.map PowerEntry.slot → j ∉ s.planner.room → t.slot j = s.slot j

/-- Slot i has had the power-down actions of 01 R9: no grant, pin or overload threshold, no window in the pending plan,
none unmuted in the active plan, no SEL, no queue place, no job but one under abort, which reads no more of its set
(02 R37, R44, log 38); a transfer under way has left its outcome (06 R118). -/
structure PoweredDown (i : SlotId) (s t : State) : Prop where
  grant : (t.slot i).grant = false
  pin : (t.slot i).pin = none
  threshold : (t.slot i).threshold = none
  planned : i ∉ t.planner.plan.map PlanWindow.slot
  muted : runsIn t.sequencer.active i = false
  sel : t.sel i = false
  powerQueue : i ∉ t.arbiter.queue.map PowerEntry.slot
  roomQueue : i ∉ t.planner.room
  queued : i ∉ t.engine.queue.map Job.slot
  deferred : i ∉ t.engine.deferred.map Job.slot
  aborted : ∀ cur, t.engine.current = some cur → cur.job.slot = i → cur.abort = true
  reading : ∀ cur, s.engine.current = some cur → cur.job.slot = i → cur.held = false →
    t.engine.current = some (cur.requestAbort s.sets)
  cut : ∀ n, (s.slot i).pin = some n → (t.slot i).wordsWritten = (s.slot i).transferCount ∧
    (t.slot i).residual = s.sets[n].length - (s.slot i).transferCount
  uncut : (s.slot i).pin = none → (t.slot i).wordsWritten = (s.slot i).wordsWritten ∧
    (t.slot i).residual = (s.slot i).residual

/-- The lines of a slot stand as 01 R4 gives for its state, and its standby-on time is set exactly while STBY_EN is on. -/
def Slot.linesFollow (c : Slot) : Prop :=
  c.stbyEn = c.state.standbyOn ∧ c.mainEn = c.state.mainOn ∧ c.cardRst = c.state.cardReset ∧
    (c.standby = .off ↔ c.stbyEn = false)

/-- Each state timer runs exactly in the state that starts it, the poll interval only in READY_WAIT (01 R27). -/
def Slot.timersFollow (c : Slot) : Prop :=
  (c.timers.consent.isSome ↔ c.state = .consentWait) ∧ (c.timers.ramp.isSome ↔ c.state = .powering) ∧
    (c.timers.resetHold.isSome ↔ c.state = .resetHold) ∧ (c.timers.ready.isSome ↔ c.state = .readyWait) ∧
    (c.timers.cooldown.isSome ↔ c.state = .cooldown) ∧ (c.timers.poll.isSome → c.state = .readyWait)

/-- A slot's transition count after a number of state changes in one event, saturating at 255 (01 R28). -/
def raised : Nat → Nat → Nat
  | 0, n => n
  | k + 1, n => raised k (if n < 255 then n + 1 else n)

/-- Slot i has entered a state in one event: the reason written, the lines by 01 R4, the transition count raised by
`count` (R28), its notice posted, a gate report exactly when the bring-up group was entered or left (09 R170); the
contacts with their debounce timers and the trace reference stand (01 R2, R27). -/
structure Entered (i : SlotId) (st : SlotState) (r : Reason) (count : Nat) (s t : State) : Prop where
  state : (t.slot i).state = st
  reason : (t.slot i).reason = r
  lines : (t.slot i).linesFollow
  timers : (t.slot i).timersFollow
  transitions : (t.slot i).transitions = raised count (s.slot i).transitions
  posted : t.posted i
  gate : t.recorder.gateReports.filter (fun g => decide (g.slot = i)) =
    s.recorder.gateReports.filter (fun g => decide (g.slot = i)) ++
      if (s.slot i).state.inBringUp = st.inBringUp then [] else [{ slot := i, entering := st.inBringUp }]
  early : (t.slot i).early = (s.slot i).early ∧ (t.slot i).earlyRaw = (s.slot i).earlyRaw ∧
    (t.slot i).debounceEarly = (s.slot i).debounceEarly
  late : (t.slot i).late = (s.slot i).late ∧ (t.slot i).lateRaw = (s.slot i).lateRaw ∧
    (t.slot i).debounceLate = (s.slot i).debounceLate
  traceRef : (t.slot i).traceRef = (s.slot i).traceRef

/-- An event of slot i that reaches no other block: only its record, its notice, its gate reports and the replies may
differ. -/
structure Local (i : SlotId) (s t : State) : Prop where
  rest : { t with slots := s.slots, recorder := s.recorder, link := s.link } = s
  recorder : { t.recorder with gateReports := s.recorder.gateReports } = s.recorder
  link : { t.link with replies := s.link.replies, notices := s.link.notices } = s.link
  notices : t.link.notices.filter (fun n => decide (n.source ≠ .slot i)) =
    s.link.notices.filter fun n => decide (n.source ≠ .slot i)
  slots : ∀ j, j ≠ i → t.slot j = s.slot j

/-- The unlock allowance, the fault count and the screening results of slot i stand. -/
structure Keeps (i : SlotId) (s t : State) : Prop where
  allowance : (t.slot i).allowance = (s.slot i).allowance
  faultCount : (t.slot i).faultCount = (s.slot i).faultCount
  screening : (t.slot i).screening = (s.slot i).screening

/-- Exactly one reply has been queued (10 R189). -/
def Answers (s t : State) (kind tag : Byte) (status : Status) (data : List Byte) : Prop :=
  t.link.replies = s.link.replies ++ [{ kind := kind ||| 0x80, tag := tag, payload := status.code :: data }]

/-- The head of the power queue cannot be granted: it does not fit the budget, or the ramp limit is reached (05 R92). -/
def Arbiter.blocked (a : Arbiter) : Prop :=
  ∀ e rest, a.queue = e :: rest → a.budget < a.committed + e.power ∨ a.rampLimit ≤ a.ramping

/-- Slot i enters POWER_WAIT (05 R91, R92, R95): refused with POWER_RANGE above the budget; granted in the same event
when no slot waits and budget and ramp limit allow; else queued at the tail. Identity, allowance and counts stand. -/
structure JoinsPower (i : SlotId) (s t : State) : Prop where
  frame : SlotFrame i s t
  keeps : Keeps i s t
  refused : s.arbiter.budget < (s.slot i).power →
    Entered i .refused .powerRange 1 s t ∧ t.arbiter = s.arbiter ∧ Local i s t
  granted : s.arbiter.queue = [] → s.arbiter.committed + (s.slot i).power ≤ s.arbiter.budget →
    s.arbiter.ramping < s.arbiter.rampLimit →
    Entered i .powering .none 2 s t ∧
      t.arbiter = { s.arbiter with
        committed := s.arbiter.committed + (s.slot i).power, ramping := s.arbiter.ramping + 1 } ∧
      (t.slot i).grant = true ∧ (t.slot i).timers.ramp = some s.times.rampLimit ∧ (t.slot i).overCurrentRun = 0 ∧
      (t.slot i).pgGoodRun = 0 ∧ (t.slot i).pgLostRun = 0
  waits : (s.slot i).power ≤ s.arbiter.budget → s.arbiter.blocked →
    (s.arbiter.queue = [] → s.arbiter.budget < s.arbiter.committed + (s.slot i).power ∨
      s.arbiter.rampLimit ≤ s.arbiter.ramping) →
    Entered i .powerWait .none 1 s t ∧
      t.arbiter = { s.arbiter with queue := s.arbiter.queue ++ [{ slot := i, power := (s.slot i).power }] }

/-- Slot i enters IDENTIFYING with the actions of 01 R7: results absent, STBY_EN on (by its lines), an older job
withdrawn or under abort, the header read issued. Nothing but its record and its jobs is touched. -/
structure Identifies (i : SlotId) (r : Reason) (count : Nat) (s t : State) : Prop where
  frame : SlotFrame i s t
  near : Local i s { t with engine := s.engine }
  entered : Entered i .identifying r count s t
  screening : (t.slot i).screening = Screening.absent
  issued : { slot := i, transaction := .identRead 0 8 } ∈ t.engine.jobs
  queued : ∀ j ∈ t.engine.queue ++ t.engine.deferred, j.slot = i → j.transaction = .identRead 0 8
  aborted : ∀ cur, t.engine.current = some cur → cur.job.slot = i → cur.abort = true ∨
    cur.job.transaction = .identRead 0 8

/-- A fault of slot i is taken (01 R15, R16): power-down, fault count, reason, and COOLDOWN with its timer while a
retryable fault's count is within the retry limit, else FAULTED. -/
structure Faults (i : SlotId) (code : Reason) (count : Nat) (s t : State) : Prop where
  frame : SlotFrame i s t
  poweredDown : PoweredDown i s t
  faultCount : (t.slot i).faultCount =
    if (s.slot i).faultCount < 255 then (s.slot i).faultCount + 1 else (s.slot i).faultCount
  allowance : (t.slot i).allowance = (s.slot i).allowance
  screening : (t.slot i).screening = (s.slot i).screening
  retried : code.retryable = true → (t.slot i).faultCount ≤ s.times.retryLimit →
    Entered i .cooldown code count s t ∧ (t.slot i).timers.cooldown = some s.times.cooldown
  rested : code.retryable = false ∨ s.times.retryLimit < (t.slot i).faultCount →
    Entered i .faulted code count s t

/-- Insertion of slot i (08 R142): JOINING with its window at its rank position when the plan still fits, else
ROOM_WAIT with NO_ROOM at the room queue's tail; always the latter in OFF mode. -/
structure Inserts (i : SlotId) (s t : State) : Prop where
  frame : SlotFrame i s t
  keeps : Keeps i s t
  joins : ∀ rank window, s.planner.settings.mode ≠ .off → (s.slot i).screening.rank = some rank →
    (s.slot i).screening.window = some window →
    planFits s.planner.settings (placeWindow { slot := i, rank := rank, window := window } s.planner.plan) = true →
    Entered i .joining .none 1 s t ∧
      t.planner = { s.planner with
        plan := placeWindow { slot := i, rank := rank, window := window } s.planner.plan }
  waits : (s.planner.settings.mode = .off ∨ ∃ rank window, (s.slot i).screening.rank = some rank ∧
      (s.slot i).screening.window = some window ∧
      planFits s.planner.settings (placeWindow { slot := i, rank := rank, window := window } s.planner.plan) = false) →
    Entered i .roomWait .noRoom 1 s t ∧ t.planner = { s.planner with room := s.planner.room ++ [i] }

/-- Slot i starts its transfer from a READY set (06 R113, R114): the set pinned, the transfer count 0, the first block
issued. -/
structure StartsTransfer (i : SlotId) (n : Fin 8) (s t : State) : Prop where
  frame : SlotFrame i s t
  keeps : Keeps i s t
  state : (t.slot i).state = .configuring ∧ (t.slot i).reason = .none
  pin : (t.slot i).pin = some n ∧ t.sets[n] = { s.sets[n] with pins := s.sets[n].pins + 1 }
  count : (t.slot i).transferCount = 0
  issued : { slot := i, transaction := .blockWrite n 0 (min (s.slot i).configBlock s.sets[n].length) } ∈ t.engine.jobs

/-- A job ends (02 R42, R46): its slot is sent the completion, its deferred job joins the queue's tail, and the oldest
queued job, if any, is taken, held while its slot's standby settles (R33). -/
structure JobEnds (cur : CurrentJob) (outcome : JobOutcome) (data : List Byte) (words : Nat) (index : Option Nat)
    (s t : State) : Prop where
  sent : t.slot cur.job.slot = { s.slot cur.job.slot with inbox := { (s.slot cur.job.slot).inbox with
    completions := (s.slot cur.job.slot).inbox.completions ++
      [{ kind := cur.job.transaction.kind, outcome := outcome, data := data, words := words, byteIndex := index }] } }
  others : ∀ j, j ≠ cur.job.slot → t.slot j = s.slot j
  rest : { t with slots := s.slots, engine := s.engine } = s
  deferred : t.engine.deferred = s.engine.deferred.filter fun j => decide (j.slot ≠ cur.job.slot)
  idle : s.engine.queue ++ (s.engine.deferred.filter fun j => decide (j.slot = cur.job.slot)) = [] →
    t.engine.queue = [] ∧ t.engine.current = none
  next : ∀ j queue, s.engine.queue ++ (s.engine.deferred.filter fun j => decide (j.slot = cur.job.slot)) = j :: queue →
    t.engine.queue = queue ∧ t.engine.current = some
      { job := j, held := decide ((s.slot j.slot).standby = .settling), nextByte := 0, received := [],
        abort := false, cutBytes := [] }

/-- The windows of a plan, each starting where those before it end, the first at tick 50 (08 R141). -/
def laidOut (plan : List PlanWindow) : List ActiveWindow :=
  plan.zipIdx.map fun p =>
    { slot := p.1.slot, rank := p.1.rank, start := 50 + ((plan.take p.2).map fun w => w.window.length).sum,
      window := p.1.window, muted := false }

/-- The laid-out pending plan differs from the active plan: other slots, another order, other starts, or a muted window
in the active plan (08 R146). -/
def State.plansChanged (s : State) : Prop :=
  (laidOut s.planner.plan).map (fun w => (w.slot, w.start)) ≠ s.sequencer.active.map (fun w => (w.slot, w.start)) ∨
    ∃ w ∈ s.sequencer.active, w.muted = true

/-- A cycle start (08 R146, R153): the count advances and wraps, the planning C and tolerance come into force, a window in
progress is cut, those still to come are dropped, and the pending plan is adopted where the plans differ, which is
reported to each of its slots that the old plan did not run. The sequencer's state and its EARLY count are given. -/
structure StartsCycle (state : SequencerState) (early : Nat) (s t : State) : Prop where
  sequencer : ∃ active, t.sequencer = { s.sequencer with
    state := state, earlyCount := early, cycleCount := s.sequencer.cycleCount + 1,
    length := s.planner.settings.length, tolerance := s.planner.settings.tolerance, markLow := false, next := some 0,
    run := none, active := active }
  adopted : s.plansChanged → t.sequencer.active = laidOut s.planner.plan
  kept : ¬ s.plansChanged → t.sequencer.active = s.sequencer.active ∧ t.slots = s.slots
  reported : s.plansChanged → ∀ i, t.slot i = { s.slot i with inbox := { (s.slot i).inbox with
    adoptionReports := (s.slot i).inbox.adoptionReports +
      if runsIn s.sequencer.active i then 0 else s.planner.plan.countP fun w => decide (w.slot = i) } }
  rest : { t with slots := s.slots, sequencer := s.sequencer, link := s.link } = s
  link : { t.link with notices := s.link.notices } = s.link

/-- The cycle notice waits with the sequencer as it stands and a cause (08 R159). -/
def State.postedCycle (t : State) (cause : CycleCause) : Prop :=
  Notice.cycle cause t.sequencer.state t.sequencer.cycleCount t.sequencer.earlyCount t.sequencer.lostCount
    t.sequencer.illegalCount ∈ t.link.notices

/-- The recorder notice waits with the recorder as it stands and a cause (09 R181). -/
def State.postedRecorder (t : State) (cause : RecCause) : Prop :=
  Notice.recorder cause (BitVec.ofNat 8 t.recorder.state.code) t.recorder.events.length
    (t.recorder.events.getLast?.map EventRecord.sequence) t.recorder.refused ∈ t.link.notices

/-- The number of slots in a state. -/
def State.countState (s : State) (st : SlotState) : Nat :=
  (List.finRange 12).countP fun i => decide ((s.slot i).state = st)

/-! ### The service link port (10) -/

/-- The bytes of a frame being received: LEN at most 240, and the frame's end not yet reached (R186, R187). -/
def Receiver.sound : Receiver → Prop
  | .hunting => True
  | .receiving [] => True
  | .receiving (len :: rest) => len.toNat ≤ 240 ∧ rest.length ≤ len.toNat + 3

/-- A reply being sent is the oldest of the reply queue (R190, R191). -/
def Link.sendsOldest (l : Link) : Prop :=
  match l.tx with
  | some (.reply bytes) => l.replies.head?.map Reply.frame = some bytes
  | some (.notice _) | none => True

/-- At most four replies, at most one waiting notice per source, counters that saturate, a restart wait only while a reply
is queued, and nothing left waiting beside an idle transmitter (R187, R190 to R192, R194). -/
def State.linkSound (s : State) : Prop :=
  s.link.replies.length ≤ 4 ∧ (s.link.notices.map Notice.source).Nodup ∧ s.link.sendsOldest ∧ s.link.receiver.sound ∧
    (s.link.restartWait = true → s.link.replies ≠ []) ∧
    s.link.checkFailures ≤ 65535 ∧ s.link.gapAborts ≤ 65535 ∧ s.link.overruns ≤ 65535 ∧
    (s.inReset = false → s.link.tx = none → s.link.replies = [] ∧ s.link.notices = [])

/-! ### The slots' lines, timers and contacts (01) -/

/-- The lines of a slot while RESET is asserted (01 R29, 02 R48). -/
def Slot.linesReleased (c : Slot) : Prop :=
  c.stbyEn = false ∧ c.mainEn = false ∧ c.cardRst = true ∧ c.standby = .off

/-- Every slot's lines follow its state, but for RESET asserted, which releases every line (01 R4, R29, 08 R160). -/
def State.linesSound (s : State) : Prop :=
  if s.inReset then
    (∀ i, (s.slot i).linesReleased) ∧ s.sequencer.run = none ∧ s.sequencer.markLow = false ∧
      s.recorder.traceOutLow = false ∧ s.link.tx = none
  else ∀ i, (s.slot i).linesFollow

/-- The state timers of every slot follow its state. -/
def State.timersSound (s : State) : Prop := ∀ i, (s.slot i).timersFollow

/-- Outside RESET a contact's debounce timer runs exactly while the raw input differs from the debounced state
(01 R5, R10, R29). -/
def State.contactsSound (s : State) : Prop :=
  s.inReset = false → ∀ i contact,
    ((s.slot i).debounceTimer contact).isSome ↔ (s.slot i).raw contact ≠ (s.slot i).debounced contact

/-! ### Queues, power, plan, sets, allowance (05, 06, 08, 04) -/


/-- A slot stands in the power queue exactly when it is in POWER_WAIT, in the room queue exactly when it is in ROOM_WAIT,
and in each at most once (05 R90, 08 R143). -/
def State.queuesSound (s : State) : Prop :=
  (s.arbiter.queue.map PowerEntry.slot).Nodup ∧ s.planner.room.Nodup ∧
    ∀ i, (i ∈ s.arbiter.queue.map PowerEntry.slot ↔ (s.slot i).state = .powerWait) ∧
      (i ∈ s.planner.room ↔ (s.slot i).state = .roomWait)

/-- The steady powers of the slots that hold a grant, summed (05 R89). -/
def State.grantedPower (s : State) : Nat :=
  ((List.finRange 12).map fun i => if (s.slot i).grant then (s.slot i).power else 0).sum

/-- Grants are held in exactly the states with main power on; the committed power and the ramping count are what they
stand for and stay within the budget and the ramp limit; a queue entry holds its card's steady power (05 R89); a slot in
RESET_HOLD to RUNNING holds the overload threshold of its power and the margin in force (05 R87, R88); and no power is
left idle: the head of the queue cannot be granted (05 R92). -/
def State.powerSound (s : State) : Prop :=
  (∀ i, (s.slot i).grant = (s.slot i).state.mainOn) ∧ s.arbiter.committed = s.grantedPower ∧
    s.arbiter.ramping = s.countState .powering ∧ s.arbiter.committed ≤ s.arbiter.budget ∧
    s.arbiter.ramping ≤ s.arbiter.rampLimit ∧ (∀ e ∈ s.arbiter.queue, e.power = (s.slot e.slot).power) ∧
    (∀ i, (s.slot i).state ∈ [.resetHold, .readyWait, .configuring, .roomWait, .joining, .running] →
      (s.slot i).threshold =
        some (min 4095 ((((((s.slot i).power * 25 + 5) / 6) * s.monitor.margin + 99) / 100 + 4) / 5))) ∧
    s.arbiter.blocked

/-- A slot's rank and descriptor are those of a window of the pending plan (08 R141). -/
def State.carries (s : State) (w : PlanWindow) : Prop :=
  (s.slot w.slot).screening.rank = some w.rank ∧ (s.slot w.slot).screening.window = some w.window

/-- The planning settings are in their ranges. The pending plan holds exactly the windows of the slots in JOINING and
RUNNING, once each, in plan order, within the plan limit, each with its slot's rank and descriptor; in OFF mode it is
empty (08 R139, R141). No slot of the room queue could be placed (08 R144). -/
def State.planSound (s : State) : Prop :=
  (s.planner.plan.map PlanWindow.slot).Nodup ∧
    (∀ i, i ∈ s.planner.plan.map PlanWindow.slot ↔ (s.slot i).state = .joining ∨ (s.slot i).state = .running) ∧
    s.planner.plan.Pairwise (fun v w => v.precedes w = true) ∧
    planFits s.planner.settings s.planner.plan = true ∧ (∀ w ∈ s.planner.plan, s.carries w) ∧
    (s.planner.settings.mode = .off → s.planner.plan = []) ∧
    2500 ≤ s.planner.settings.length ∧ s.planner.settings.length ≤ 500000 ∧ 10 ≤ s.planner.settings.tolerance ∧
    s.planner.settings.tolerance ≤ 500 ∧ ∀ i ∈ s.planner.room, tryPlace i s = none

/-- The active plan holds at most one window per slot, and SEL is asserted only for a RUNNING slot whose window stands
unmuted in it (08 R146, R154). -/
def State.selSound (s : State) : Prop :=
  (s.sequencer.active.map ActiveWindow.slot).Nodup ∧
    ∀ i, s.sel i = true → (s.slot i).state = .running ∧ runsIn s.sequencer.active i = true

/-- A parameter set's length, written count and state agree (06 R107). -/
def ParamSet.sound (p : ParamSet) : Prop :=
  match p.state with
  | .empty => p.length = 0 ∧ p.written = 0
  | .loading => 1 ≤ p.length ∧ p.length ≤ 512 ∧ p.written < p.length
  | .ready => 1 ≤ p.length ∧ p.length ≤ 512 ∧ p.written = p.length

/-- The slots that hold a pin on a set. -/
def State.pinners (s : State) (n : Fin 8) : Nat := (List.finRange 12).countP fun i => decide ((s.slot i).pin = some n)

/-- Every set agrees with itself, its pin count is the number of slots writing from it, and a pinned set is READY; only a
slot in CONFIGURING holds a pin (06 R107, R108). -/
def State.setsSound (s : State) : Prop :=
  (∀ n : Fin 8, s.sets[n].sound ∧ s.sets[n].pins = s.pinners n ∧ (0 < s.sets[n].pins → s.sets[n].state = .ready)) ∧
    ∀ i, (s.slot i).pin.isSome → (s.slot i).state = .configuring

/-- The unlock allowance lies between 0 and 3 and is 0 exactly in BARRED, except that a DISABLED slot may hold 0
(04 R80). -/
def State.allowanceSound (s : State) : Prop :=
  ∀ i, (s.slot i).allowance ≤ 3 ∧ ((s.slot i).state = .barred → (s.slot i).allowance = 0) ∧
    ((s.slot i).allowance = 0 → (s.slot i).state = .barred ∨ (s.slot i).state = .disabled)

/-! ### The setup bus engine (02) -/

/-- The jobs of a slot that are not under abort, and the completions of such jobs on their way to it. -/
def State.outstanding (s : State) (i : SlotId) : Nat :=
  (s.engine.current.toList.countP fun cur => decide (cur.job.slot = i) && !cur.abort) +
    ((s.engine.queue ++ s.engine.deferred).countP fun j => decide (j.slot = i)) +
    (s.slot i).inbox.completions.countP fun c => decide (c.outcome ≠ .aborted)

/-- Outside RESET: an idle engine has nothing queued, queue and job in progress hold at most one job per slot, a deferred
job waits behind an abort of its slot's job, a held job waits for its slot's standby to settle, and a slot has work
outstanding only in the four states that issue jobs, once at most but in READY_WAIT, where a poll may follow a read that
has been answered and not yet taken (R33, R40, R41, R44, R46; 05 R102). -/
def State.jobsSound (s : State) : Prop :=
  s.inReset = false →
    (s.engine.current = none → s.engine.queue = [] ∧ s.engine.deferred = []) ∧
    (∀ i, (((s.engine.current.map CurrentJob.job).toList ++ s.engine.queue).countP fun j => decide (j.slot = i)) ≤ 1) ∧
    (s.engine.deferred.map Job.slot).Nodup ∧
    (∀ j ∈ s.engine.deferred, ∃ cur, s.engine.current = some cur ∧ cur.job.slot = j.slot ∧ cur.abort = true) ∧
    (∀ cur, s.engine.current = some cur → cur.held = true →
      cur.abort = false ∧ (s.slot cur.job.slot).standby = .settling) ∧
    ∀ i, ((s.slot i).state ∈ [.identifying, .unlocking, .configuring] → s.outstanding i ≤ 1) ∧
      ((s.slot i).state ∉ [.identifying, .unlocking, .configuring, .readyWait] → s.outstanding i = 0)

/-! ### The cycle sequencer (08) -/

/-- The sequencer state belongs to the cycle mode, MARK is driven only in MASTER mode, a window is run only in RUNNING or
LOCKED, and the error counts saturate (R138, R151, R154). -/
def State.cycleSound (s : State) : Prop :=
  (match s.planner.settings.mode with
   | .off => s.sequencer.state = .stopped
   | .master => s.sequencer.state = .running
   | .follower => s.sequencer.state.follows = true) ∧
    (s.sequencer.markLow = true → s.sequencer.state = .running) ∧
    (s.sequencer.run.isSome → s.sequencer.state.trusted = true) ∧
    s.sequencer.earlyCount ≤ 65535 ∧ s.sequencer.lostCount ≤ 65535 ∧ s.sequencer.illegalCount ≤ 65535

/-! ### The fault recorder (09) -/

/-- The recorder is writing into segment W (R164). -/
def RecState.writing : RecState → Bool
  | .fillingPre | .ready | .capturing _ => true
  | .stopped | .full => false

/-- The ring: as many frozen segments as queued records, room to write while it writes, all frozen in FULL; the indices
in their ranges; trace memory in its canonical form; the gate open exactly while its count or its tail runs (R163,
R164, R170, R176). -/
def Recorder.sound (r : Recorder) : Prop :=
  r.settings.inRange = true ∧ r.w < r.segments ∧ r.r < r.segments ∧ r.events.length = r.frozen ∧
    (r.state.writing = true → r.frozen < r.segments) ∧ (r.state = .full → r.frozen = r.segments) ∧
    r.writePos < r.frameCount ∧ r.written ≤ r.frameCount ∧ (r.state = .stopped → r.writePos = 0 ∧ r.written = 0) ∧
    r.refused ≤ 255 ∧ r.sequence < 65536 ∧
    r.memory.wf = true ∧ (∀ p ∈ r.memory, p.1 < Config.traceFrames) ∧ (r.gateOpen = true ↔ r.gateCount ≠ 0 ∨ r.gateTail.isSome) ∧
    (r.gateTail.isSome → r.gateCount = 0)

end Sys2Proof.Machine
end

