-- ==== Sys2Proof/WellFormed.lean ====
section
/-!
DEFINITION. Which commands can be given: the operand checks that the types of Syntax.lean do not make already.
A host command's numbers are unchecked here, because the part itself answers a bad one (10 R188).
-/
namespace Sys2Proof

/-- A slot is named exactly for the two slot sources (09 R168). -/
def Trigger.wellFormed (t : Trigger) : Bool :=
  match t.source with
  | .slotOvercurrent | .slotPowerLost => t.slot.isSome
  | .railDip | .host | .external => t.slot.isNone

/-- The longest transaction is a BLOCK_WRITE of 32 words, 68 bytes; the longest read is 64 bytes (02 section 2.2). -/
def BusEnd.wellFormed : BusEnd → Bool
  | .finished data => data.length ≤ 64
  | .nak index => index < 68
  | .boundary bytes data => bytes ≤ 68 ∧ data.length ≤ 64

def LateByte.wellFormed (late : LateByte) : Bool := late.index < 68 ∧ late.data.length ≤ 64

/-- The operand checks, command by command; a command not named has none. -/
def Instr.wellFormed : Instr → Bool
  | .keyLoad _ _ key => key.length = 16
  | .paramLoad _ _ _ _ words => 1 ≤ words.length ∧ words.length ≤ 110
  | .jobComplete how => how.wellFormed
  | .busTimeout late => late.wellFormed
  | .markPulseEnd width _ => 1 ≤ width
  | .triggerTaken t => t.wellFormed
  | _ => true

end Sys2Proof
end

