-- ==== Sys2Proof/Certificates/Slice0/Obligations.lean ====
section
/-!
DEFINITION. The statements for the provers, from the manual's numbered rules: one step, the safety properties that every
step keeps, and command by command when it completes, what it leaves behind and what it leaves alone.
-/
open Sys2Proof Sys2Proof.Machine

/-! ### The machine as a whole -/

/-- A step runs the command at the front of the queue on the state with the queue's rest; an empty queue idles (log 3). -/
def Obligations.StepRunsFrontCommand : Prop :=
  (∀ (c : Instr) (s : State), step (s.inFront c) = exec c s) ∧ ∀ s : State, s.pending = [] → step s = .next s

/-- Every command in every state answers a next state: the block has no stop. -/
def Obligations.EveryCommandAnswersNextState : Prop := ∀ (c : Instr) (s : State), ∃ t, exec c s = .next t

/-- The machine after reset has every safety property (its pins and internal values are those of logs 7 and 8). -/
def Obligations.ResetStateIsSound : Prop :=
  let s := State.reset
  s.linkSound ∧ s.linesSound ∧ s.timersSound ∧ s.contactsSound ∧ s.queuesSound ∧ s.powerSound ∧ s.planSound ∧
    s.selSound ∧ s.setsSound ∧ s.allowanceSound ∧ s.jobsSound ∧ s.cycleSound ∧ s.recorder.sound

/-- Every step keeps: at most four replies, one waiting notice per source, the reply on the line is the oldest queued, a
receiver inside its frame, a restart wait only while a reply is queued, and nothing left waiting beside an idle transmitter
(10 R186, R190 to R192, R194). -/
def Obligations.StepKeepsLinkSound : Prop :=
  ∀ s t : State, s.linkSound → step s = .next t → t.linkSound

/-- Every step keeps every slot's STBY_EN, MAIN_EN and CARD_RST as the table of 01 R4 gives for its state, and all of them
released while RESET is asserted (01 R29). -/
def Obligations.StepKeepsLinesByState : Prop :=
  ∀ s t : State, s.linesSound → step s = .next t → t.linesSound

/-- Every step keeps each slot timer running exactly in the state that starts it (01 R27), so that no slot is left in
such a state without its timer, and each debounce timer running exactly while the raw input differs from the debounced
state (01 R5). -/
def Obligations.StepKeepsTimersAndDebounce : Prop :=
  (∀ s t : State, s.timersSound → step s = .next t → t.timersSound) ∧
    ∀ s t : State, s.contactsSound → step s = .next t → t.contactsSound

/-- Every step keeps at most one job per slot in the setup bus engine, none waiting beside an idle engine, and a deferred
job only behind an abort of its slot's job; and a slot has work outstanding, completions on their way counted, only where
it issues jobs (02 R40, R41, R46). That no completion is left on its way elsewhere is the model's: power-down and
withdrawal empty the inbox (log 14), and a later poll is withdrawn (log 34). -/
def Obligations.StepKeepsOneJobPerSlot : Prop :=
  ∀ s t : State, s.queuesSound ∧ s.jobsSound → step s = .next t → t.jobsSound

/-- Every step keeps the power queue holding exactly the slots in POWER_WAIT and the room queue exactly those in
ROOM_WAIT, each once (05 R90, 08 R143). -/
def Obligations.StepKeepsQueuesByState : Prop :=
  ∀ s t : State, s.queuesSound → step s = .next t → t.queuesSound

/-- Every step keeps the grants, the committed power, the ramping count and the queue entries true to the slots' states
and cards, the committed power within the budget, the ramping count within the ramp limit, and in every slot of RESET_HOLD
to RUNNING the overload threshold of its card's power and the margin in force (05 R87 to R89). -/
def Obligations.StepKeepsPowerWithinBudget : Prop :=
  ∀ s t : State, s.queuesSound ∧ s.powerSound → step s = .next t → t.powerSound

/-- Every step keeps the pending plan holding exactly the windows of JOINING and RUNNING slots, in plan order within the
plan limit, and SEL asserted only for a RUNNING slot with an unmuted window (08 R141, R146, R154). -/
def Obligations.StepKeepsPlanAndSel : Prop :=
  ∀ s t : State, s.queuesSound ∧ s.planSound ∧ s.selSound → step s = .next t → t.planSound ∧ t.selSound

/-- Every step keeps every parameter set consistent, its pin count the number of slots writing from it, and a pinned set
READY (06 R107, R108). -/
def Obligations.StepKeepsSetsPinned : Prop :=
  ∀ s t : State, s.queuesSound ∧ s.setsSound → step s = .next t → t.setsSound

/-- Every step keeps the unlock allowance between 0 and 3, and 0 exactly in BARRED but for a DISABLED slot (04 R80). -/
def Obligations.StepKeepsAllowance : Prop :=
  ∀ s t : State, s.queuesSound ∧ s.allowanceSound → step s = .next t → t.allowanceSound

/-- Every step keeps the sequencer state within the cycle mode's, MARK driven only in RUNNING, and a window run only in
RUNNING or LOCKED (08 R138, R152, R154). -/
def Obligations.StepKeepsSequencerInMode : Prop :=
  ∀ s t : State, s.cycleSound → step s = .next t → t.cycleSound

/-- Every step keeps as many frozen segments as event records, never more than the segment count, the trace memory in its
canonical form, and the gate open exactly while its count or tail runs (09 R163, R170; the canonical form and the zeroed
counts of STOPPED are the model's, logs 9 and 24). -/
def Obligations.StepKeepsRecorderRing : Prop :=
  ∀ s t : State, s.recorder.sound → step s = .next t → t.recorder.sound

/-! ### Resets -/

/-- COLD_RESET ends a cold reset: every block takes the values the chapters give, the contact pins stand, and a made
contact starts its debounce (01 R29, 02 R48, 03 R62, 04 R69, 05 R105, 06 R120, 08 R160, 09 R182, 10 R196). -/
def Obligations.ColdResetTakesResetValues : Prop :=
  ∀ (s : State) (rateHigh : Bool), ∃ t, exec (.coldReset rateHigh) s = .next t ∧
    t.pending = s.pending ∧ t.inReset = false ∧
    (∀ i, (t.slot i).state = .empty ∧ (t.slot i).reason = .none ∧ (t.slot i).early = false ∧ (t.slot i).late = false ∧
      (t.slot i).screening = Screening.absent ∧ (t.slot i).allowance = 3 ∧ (t.slot i).faultCount = 0 ∧
      (t.slot i).overruns = 0 ∧ (t.slot i).transitions = 0 ∧ (t.slot i).wordsWritten = 0 ∧ (t.slot i).residual = 0 ∧
      (t.slot i).traceRef = none ∧ (t.slot i).grant = false ∧ (t.slot i).linesReleased ∧
      (t.slot i).timers = StateTimers.idle ∧ (t.slot i).pin = none ∧ (t.slot i).threshold = none ∧
      (t.slot i).overCurrentRun = 0 ∧ (t.slot i).pgGoodRun = 0 ∧ (t.slot i).pgLostRun = 0 ∧
      (t.slot i).earlyRaw = (s.slot i).earlyRaw ∧ (t.slot i).lateRaw = (s.slot i).lateRaw ∧
      (t.slot i).debounceEarly = (if (s.slot i).earlyRaw then some 50 else none) ∧
      (t.slot i).debounceLate = if (s.slot i).lateRaw then some 50 else none) ∧
    t.times = { debounce := 50, rampLimit := 20, resetHold := 10, readyTimeout := 1000, consentTimeout := 10,
                cooldown := 500, retryLimit := 1 } ∧
    t.engine = { queue := [], current := none, deferred := [], ended := none } ∧
    (∀ n : Fin 16, t.policy.entries[n] =
      { kind := .unused, pattern := 0, mask := 0, action := .allow, rank := 0, set := none }) ∧
    t.policy.default = .refuse ∧ t.policy.frozen = false ∧
    (∀ k : Fin 4, t.keys[k] = { loaded := false, key := List.replicate 16 0 }) ∧
    t.arbiter = { budget := 2000, rampLimit := 1, committed := 0, ramping := 0, queue := [] } ∧
    t.monitor = { margin := 150, inrush := 400, filter := 5, railDip := 2000, timeStamp := 0 } ∧
    (∀ n : Fin 8, t.sets[n] = { state := .empty, length := 0, words := [], pins := 0 }) ∧
    t.planner = { settings := { mode := .off, length := 25000, tolerance := 100 }, plan := [], room := [] } ∧
    t.sequencer.state = .stopped ∧ t.sequencer.length = 25000 ∧ t.sequencer.tolerance = 100 ∧
    t.sequencer.active = [] ∧ t.sequencer.cycleCount = 0 ∧ t.sequencer.earlyCount = 0 ∧ t.sequencer.lostCount = 0 ∧
    t.sequencer.illegalCount = 0 ∧ t.sequencer.markLow = false ∧ t.sequencer.run = none ∧
    t.recorder.state = .stopped ∧
    t.recorder.settings = { mode := 2, pre := 96, overlap := 32, decimation := 2, gateTail := 200, enables := 0b01111,
                            traceOut := false } ∧
    t.recorder.w = 0 ∧ t.recorder.r = 0 ∧ t.recorder.lastWrite = false ∧ t.recorder.events = [] ∧
    t.recorder.sequence = 0 ∧ t.recorder.refused = 0 ∧ t.recorder.pattern = 0 ∧ t.recorder.latches = [] ∧
    t.recorder.overlap = none ∧ t.recorder.gateOpen = false ∧ t.recorder.gateCount = 0 ∧
    t.recorder.gateTail = none ∧ t.recorder.traceOutLow = false ∧
    t.link = { rate := if rateHigh then .rate921600 else .rate115200, receiver := .hunting, replies := [],
               notices := [], tx := none, checkFailures := 0, gapAborts := 0, overruns := 0, restartWait := false } ∧
    t.linkRdy = true ∧ ∀ k, t.txd k = true

/-- RESET_ASSERTED switches every slot off, releases SEL, STROBE, DIR, MARK, TRACE_OUT, the setup-bus pair and TXD, and
deasserts LINK_RDY; each slot's record stands. While RESET is asserted no command but the reset's own and the contact
pins' acts (01 R29, 02 R48, 08 R160, 09 R182, 10 R196; that the others do not act is log 5). -/
def Obligations.ResetAssertedReleasesLines : Prop :=
  (∀ s : State, ∃ t, exec .resetAsserted s = .next t ∧ t.inReset = true ∧
    (∀ i, t.slot i = { s.slot i with stbyEn := false, mainEn := false, cardRst := true, standby := .off } ∧
      t.sel i = false) ∧
    t.strobe = false ∧ t.dirIn = false ∧ t.sequencer.markLow = false ∧ t.recorder.traceOutLow = false ∧
    t.selectedPair = none ∧ t.link.tx = none ∧ t.linkRdy = false ∧ (∀ k, t.txd k = true) ∧
    t.pending = s.pending ∧ t.times = s.times ∧ t.policy = s.policy ∧ t.keys = s.keys ∧ t.arbiter = s.arbiter ∧
    t.monitor = s.monitor ∧ t.sets = s.sets ∧ t.planner = s.planner ∧ t.link.replies = s.link.replies ∧
    t.link.notices = s.link.notices) ∧
  (∀ (s : State) (c : Instr), s.inReset = true → (∀ rateHigh, c ≠ .coldReset rateHigh) → c ≠ .resetAsserted →
    (∀ i contact made, c ≠ .contactRawChange i contact made) → exec c s = .next s) ∧
  ∀ (s : State) (i : SlotId) (made : Bool), s.inReset = true →
    exec (.contactRawChange i .early made) s = .next (s.setSlot i { s.slot i with earlyRaw := made }) ∧
    exec (.contactRawChange i .late made) s = .next (s.setSlot i { s.slot i with lateRaw := made })

/-! ### The service link port -/

/-- Receiving the characters of a host command's frame, laid out by 10 R185 and the catalogue of 11.2, is that command,
whatever their stop bits: what the host writes on the line is what its row means. -/
def Obligations.ReceivedFrameIsItsCommand : Prop :=
  ∀ (c : Instr) (s : State) (kind tag : Byte) (payload : List Byte) (line : List Character),
    hostFrame c = some (kind, tag, payload) → c.wellFormed = true → s.inReset = false → s.link.receiver = .hunting →
    line.map Character.byte = frameBytes kind tag payload → execAll (line.map Instr.receivedByteTaken) s = exec c s

/-- A valid host command that ends while the reply queue holds four replies is counted as an overrun and does nothing
else; one that ends in the restart wait does nothing at all (10 R190, R194). -/
def Obligations.FullQueueAndRestartWaitDiscard : Prop :=
  ∀ (c : Instr) (s : State), (hostFrame c).isSome → s.inReset = false →
    (s.link.restartWait = true → exec c s = .next s) ∧
    (s.link.restartWait = false → 4 ≤ s.link.replies.length →
      exec c s = .next { s with link := { s.link with
        overruns := if s.link.overruns < 65535 then s.link.overruns + 1 else s.link.overruns } })

/-- RECEIVED_BYTE_TAKEN: in hunting 5Ch alone is taken; a LEN above 240 drops the frame and counts a check failure, but
not in the restart wait; every other byte before the frame's last is taken as data, 5Ch too. The byte is the character's
eight data bits, least significant first, whatever its stop bit (10 R184, R186, R187, R194). -/
def Obligations.ReceiverTakesBytes : Prop :=
  ∀ (c : Character) (s : State), s.inReset = false →
    let b := c.byte
    (∀ k : Fin 8, b.getLsbD k = c.bits[k]) ∧
    (s.link.receiver = .hunting →
      exec (.receivedByteTaken c) s =
        .next (if b = 0x5C then { s with link := { s.link with receiver := .receiving [] } } else s)) ∧
    (s.link.receiver = .receiving [] →
      exec (.receivedByteTaken c) s = .next
        (if b.toNat ≤ 240 then { s with link := { s.link with receiver := .receiving [b] } }
         else if s.link.restartWait then { s with link := { s.link with receiver := .hunting } }
         else { s with link := { s.link with
           receiver := .hunting
           checkFailures := if s.link.checkFailures < 65535 then s.link.checkFailures + 1
             else s.link.checkFailures } })) ∧
    ∀ (len : Byte) (rest : List Byte), s.link.receiver = .receiving (len :: rest) → rest.length < len.toNat + 3 →
      exec (.receivedByteTaken c) s =
        .next { s with link := { s.link with receiver := .receiving (len :: rest ++ [b]) } }

/-- FRAME_RECEIVED judges the frame whose second CRC byte it carries and returns to hunting: a wrong CRC is counted; a
kind that is no command's is answered UNKNOWN_KIND and a length the catalogue does not allow BAD_LENGTH, both with the
status alone and no other effect; a host command's frame is that command (10 R186 to R189). -/
def Obligations.FrameEndIsJudged : Prop :=
  ∀ (s : State) (kind tag hi : Byte) (last : Character) (payload : List Byte),
    let lo := last.byte
    let body := BitVec.ofNat 8 payload.length :: kind :: tag :: payload
    let hunting := { s with link := { s.link with receiver := .hunting } }
    s.inReset = false → payload.length ≤ 240 → s.link.receiver = .receiving (body ++ [hi]) →
    (fromBytes [hi, lo] ≠ (crc body).toNat → s.link.restartWait = false →
      exec (.frameReceived last) s = .next { s with link := { s.link with
        receiver := .hunting
        checkFailures := if s.link.checkFailures < 65535 then s.link.checkFailures + 1
          else s.link.checkFailures } }) ∧
    (fromBytes [hi, lo] = (crc body).toNat →
      (s.takes → allowedLengths kind.toNat = [] →
        exec (.frameReceived last) s = .next (hunting.replied kind tag .unknownKind [])) ∧
      (s.takes → allowedLengths kind.toNat ≠ [] → payload.length ∉ allowedLengths kind.toNat →
        exec (.frameReceived last) s = .next (hunting.replied kind tag .badLength [])) ∧
      ∀ c, hostFrame c = some (kind, tag, payload) → c.wellFormed = true →
        exec (.frameReceived last) s = exec c hunting)

/-- GAP_ABORT drops a frame being received; it is counted but in the restart wait. In hunting it has no effect
(10 R187, R194). -/
def Obligations.GapAbortDropsFrame : Prop :=
  ∀ s : State, s.inReset = false →
    (∀ taken, s.link.receiver = .receiving taken → s.link.restartWait = false →
      exec .gapAbort s = .next { s with link := { s.link with
        receiver := .hunting
        gapAborts := if s.link.gapAborts < 65535 then s.link.gapAborts + 1 else s.link.gapAborts } }) ∧
    (∀ taken, s.link.receiver = .receiving taken → s.link.restartWait = true →
      exec .gapAbort s = .next { s with link := { s.link with receiver := .hunting } }) ∧
    (s.link.receiver = .hunting → exec .gapAbort s = .next s)

/-- The transmitter's choice: an idle transmitter begins the oldest reply, which keeps its place, or else removes and begins
the oldest notice, KIND E1h, E2h or E3h with TAG 0 and the items of 11.2, a slot's transition count then becoming 0; a busy
one, and one with nothing waiting, begins nothing. TX_FRAME_BEGIN is that choice where it stands to be made. At the frame's
last byte a reply leaves its queue, LINK_RDY follows the count, and the choice is made in the same event, as in every
statement below in which a reply is queued or a notice posted (01 R28, 10 R190 to R192, 11.2; that the choice comes at the
event's end is log 10, that TX_FRAME_SENT with no frame on the line changes nothing log 4). On TXD the frame's bytes stand
back to back, each a low start bit, eight data bits, least significant first, and a high stop bit; else TXD is high
(10 R184). -/
def Obligations.TransmitterSendsRepliesThenNotices : Prop :=
  ∀ s : State, s.inReset = false →
    let noticed : Notice → List Byte
      | .slot i st r transitions faults =>
        frameBytes 0xE1 0 (u8 i.val ++ u8 st.code ++ u8 r.code ++ u8 transitions ++ u8 faults)
      | .cycle cause st count early lost illegal =>
        frameBytes 0xE2 0 (u8 cause.code ++ u8 st.code ++ u32 count.toNat ++ u16 early ++ u16 lost ++ u16 illegal)
      | .recorder cause stateCode records newest refused =>
        frameBytes 0xE3 0 (u8 cause.code ++ [stateCode] ++ u8 records ++
          (match newest with
           | some n => 0x01 :: u16 n
           | none => [0x00, 0x00, 0x00]) ++ u8 refused)
    exec .txFrameBegin s = .next (transmit s) ∧
    (∀ r rest, s.link.tx = none → s.link.replies = r :: rest →
      transmit s = { s with link := { s.link with tx := some (.reply (frameBytes r.kind r.tag r.payload)) } }) ∧
    (∀ n rest, s.link.tx = none → s.link.replies = [] → s.link.notices = n :: rest →
      (transmit s).link = { s.link with notices := rest, tx := some (.notice (noticed n)) } ∧
      (∀ i, (transmit s).slot i = if n.source = .slot i then { s.slot i with transitions := 0 } else s.slot i) ∧
      { transmit s with link := s.link, slots := s.slots } = s) ∧
    (s.link.tx ≠ none ∨ s.link.replies = [] ∧ s.link.notices = [] → transmit s = s) ∧
    (∀ r rest bytes, s.link.tx = some (.reply bytes) → s.link.replies = r :: rest →
      (s.link.restartWait = false ∨ rest ≠ []) →
      ∃ t, exec .txFrameSent s = .next (transmit t) ∧
        t = { s with link := { s.link with tx := none, replies := rest } } ∧
        (transmit t).linkRdy = (!s.link.restartWait && decide (rest.length < 4))) ∧
    (∀ bytes, s.link.tx = some (.notice bytes) →
      exec .txFrameSent s = .next (transmit { s with link := { s.link with tx := none } })) ∧
    (s.link.tx = none → exec .txFrameSent s = .next s) ∧
    (∀ bytes, s.link.tx = some (.reply bytes) ∨ s.link.tx = some (.notice bytes) → s.txdLevels = bytes.flatMap fun b =>
      [false, b.getLsbD 0, b.getLsbD 1, b.getLsbD 2, b.getLsbD 3, b.getLsbD 4, b.getLsbD 5, b.getLsbD 6, b.getLsbD 7,
       true]) ∧
    (s.link.tx = none → s.txdLevels = []) ∧
    (∀ k level, s.txdLevels[k]? = some level → s.txd k = level) ∧ ∀ k, s.txdLevels.length ≤ k → s.txd k = true

/-! ### The warm restart -/

/-- WARM_RESTART queues its OK reply and enters the restart wait: LINK_RDY is deasserted and nothing else changes
(10 R194). -/
def Obligations.WarmRestartEntersWait : Prop :=
  ∀ (s : State) (tag : Byte), s.takes →
    ∃ t, exec (.warmRestart tag) s = .next (transmit t) ∧
      t = { s with link := { s.link with
        restartWait := true, replies := s.link.replies ++ [{ kind := 0x82, tag := tag, payload := [0x00] }] } } ∧
      (transmit t).linkRdy = false

/-- The last byte of the WARM_RESTART reply is the restart, by either of its rows (log 11). Completions already sent are taken
first, which leaves u (02 R45, log 37). Then the port clears its queues and leaves the wait; the slots of 01 R30 go to
IDENTIFYING with WARM_RESTART and a header read, behind an abort where their job is in progress, and the others stand with
their jobs; every transition count that no such slot raises is 0, every trace reference is absent; the notice queue holds
exactly the notices of those slots and the recorder's, if it was not STOPPED; the cycle goes on as it stands, the windows of
those slots muted and cut; the pending plan keeps the RUNNING windows and the queues are empty; no ramp is left and the
committed power is that of the RUNNING grants; every pin is released, a transfer under way cut; the recorder is STOPPED and cleared but for its
settings and its gate; every setting, key, policy entry and set is kept; and the transmitter begins the first notice
(01 R30, 02 R44, R49, 05 R106, 06 R121, 08 R161, 09 R183, 10 R191, R195; the emptied listing and the zeroed counts of the
recorder are logs 24 and 25, the order of the gate reports log 19, the bytes an abort request keeps log 38). -/
def Obligations.WarmRestartCarriesSlots : Prop :=
  ∀ (s : State) (r : Reply) (bytes : List Byte),
    s.inReset = false → s.link.restartWait = true → s.link.replies = [r] → s.link.tx = some (.reply bytes) →
    ∃ u t, execAll ((List.finRange 12).flatMap fun i =>
        List.replicate (s.slot i).inbox.completions.length (.jobCompletionTaken i)) s = .next u ∧
      ((∀ i, (s.slot i).inbox.completions = []) → u = s) ∧
      exec .warmRestartPerform s = .next (transmit t) ∧ exec .txFrameSent s = .next (transmit t) ∧
      let carried (i : SlotId) : Prop := (u.slot i).state ∈ [.identifying, .consentWait, .unlocking, .powerWait,
        .powering, .resetHold, .readyWait, .configuring, .roomWait, .joining]
      -- the port
      t.link = { s.link with
        replies := [], notices := t.link.notices, tx := none, receiver := .hunting, restartWait := false } ∧
      t.linkRdy = true ∧ (t.link.notices.map Notice.source).Nodup ∧
      (∀ n, n ∈ t.link.notices ↔
        (∃ i, carried i ∧ n = .slot i .identifying .warmRestart 1 (u.slot i).faultCount) ∨
        (u.recorder.state ≠ .stopped ∧ n = .recorder .stateChange 0 0 none 0)) ∧
      -- the slots and their jobs
      (∀ i, ¬ carried i → t.slot i = { u.slot i with transitions := 0, traceRef := none }) ∧
      (∀ i, carried i →
        (t.slot i).state = .identifying ∧ (t.slot i).reason = .warmRestart ∧ (t.slot i).linesFollow ∧
        (t.slot i).timersFollow ∧ (t.slot i).screening = Screening.absent ∧ (t.slot i).transitions = 1 ∧
        (t.slot i).traceRef = none ∧ (t.slot i).grant = false ∧ (t.slot i).pin = none ∧
        (t.slot i).threshold = none ∧ (t.slot i).allowance = (u.slot i).allowance ∧
        (t.slot i).faultCount = (u.slot i).faultCount ∧ (t.slot i).early = (u.slot i).early ∧
        (t.slot i).late = (u.slot i).late ∧ { slot := i, transaction := .identRead 0 8 } ∈ t.engine.jobs ∧
        ∀ n, (u.slot i).pin = some n → (t.slot i).wordsWritten = (u.slot i).transferCount ∧
          (t.slot i).residual = u.sets[n].length - (u.slot i).transferCount) ∧
      (∀ cur, u.engine.current = some cur → cur.held = false → t.engine.current = some (
        if (u.slot cur.job.slot).state.restarted then cur.requestAbort u.sets else cur)) ∧
      (∀ j ∈ u.engine.jobs, ¬ carried j.slot → j ∈ t.engine.jobs) ∧
      -- the cycle, the power, the sets
      t.sequencer = { u.sequencer with
        active := u.sequencer.active.map fun w =>
          if (u.slot w.slot).state.restarted then { w with muted := true } else w
        run := u.sequencer.run.filter fun run => !(u.slot run.slot).state.restarted } ∧
      t.planner.settings = u.planner.settings ∧ t.arbiter.budget = u.arbiter.budget ∧
      t.arbiter.rampLimit = u.arbiter.rampLimit ∧
      (u.queuesSound → t.planner.room = [] ∧ t.arbiter.queue = []) ∧
      (u.planSound → t.planner.plan = u.planner.plan.filter fun w => decide ((u.slot w.slot).state = .running)) ∧
      (u.powerSound → t.arbiter.ramping = 0 ∧
        t.arbiter.committed = ((List.finRange 12).map fun i =>
          if (u.slot i).state = .running then (u.slot i).power else 0).sum) ∧
      (∀ n : Fin 8, { t.sets[n] with pins := u.sets[n].pins } = u.sets[n]) ∧
      (u.setsSound → ∀ n : Fin 8, t.sets[n].pins = 0) ∧
      -- the recorder and what is kept
      t.recorder = { u.recorder with
        state := .stopped, memory := [], events := [], w := 0, r := 0, lastWrite := false, sequence := 0, refused := 0
        pattern := 0, latches := [], overlap := none, writePos := 0, written := 0
        gateReports := u.recorder.gateReports ++ ((List.finRange 12).filter fun i =>
          decide ((u.slot i).state ∈ [.powering, .resetHold, .readyWait, .configuring])).map fun i =>
            { slot := i, entering := false } } ∧
      t.pending = u.pending ∧ t.times = u.times ∧ t.policy = u.policy ∧ t.keys = u.keys ∧ t.monitor = u.monitor

/-! ### Reports -/

/-- PART_STATUS, CYCLE_STATUS and PLAN_READ answer their items in order and change nothing; PLAN_READ above position 11
is answered BAD_ARGUMENT, and EMPTY with the header alone where the active plan holds no window; a window goes in the
46 bytes of 11.5, its descriptor in 35 (08 R157, R158, 10 R193, 11 R197, R198; an absent count byte before the room queue
is log 20). -/
def Obligations.ReportsOfPartAndCycle : Prop :=
  ∀ (s : State) (tag : Byte), s.takes →
    exec (.partStatus tag) s = .next (s.replied 0x01 tag .ok
      (u16 s.link.checkFailures ++ u16 s.link.gapAborts ++ u16 s.link.overruns ++ u8 s.link.rate.code ++
        u8 s.sequencer.state.code ++ u8 s.recorder.state.code ++ u16 s.arbiter.committed ++ u8 s.arbiter.ramping)) ∧
    exec (.cycleStatus tag) s = .next (s.replied 0x41 tag .ok
      (u8 s.planner.settings.mode.code ++ u32 s.planner.settings.length ++ u16 s.planner.settings.tolerance ++
        u32 s.sequencer.length ++ u16 s.sequencer.tolerance ++ u8 s.sequencer.state.code ++
        u32 s.sequencer.cycleCount.toNat ++ u16 s.sequencer.earlyCount ++ u16 s.sequencer.lostCount ++
        u16 s.sequencer.illegalCount ++ u8 s.sequencer.active.length ++
        u8 (s.sequencer.active.filter fun w => w.muted).length ++ u32 (activeEnd s.sequencer.active) ++
        u8 s.planner.plan.length ++ u32 (planEnd s.planner.plan) ++ s.planner.room.map slotByte)) ∧
    ∀ position : Byte,
      let window (d : Descriptor) : List Byte :=
        u8 d.width ++ u8 d.burst ++ u16 d.outTransfers ++ u16 d.inTransfers ++ u8 d.setupCode ++ u8 d.strobeCode ++
          u8 d.holdCode ++ u16 d.setupQ ++ u16 d.strobeQ ++ u16 d.holdQ ++ u16 d.fullAccess ++ u16 d.shortAccess ++
          u16 d.outFull ++ u16 d.outShort ++ u16 d.inFull ++ u16 d.inShort ++ u16 d.stretch ++ u16 d.gap ++ u32 d.length
      let header := u8 s.planner.settings.mode.code ++ u8 s.sequencer.state.code ++ u32 s.sequencer.length ++
        u16 s.sequencer.tolerance ++ u8 s.sequencer.active.length ++ u32 (activeEnd s.sequencer.active)
      exec (.planRead tag position) s = .next (
        if 11 < position.toNat then s.replied 0x40 tag .badArgument []
        else
          match s.sequencer.active[position.toNat]? with
          | none => s.replied 0x40 tag .empty header
          | some w => s.replied 0x40 tag .ok
            (header ++ u8 w.slot.val ++ u8 w.rank ++ u32 w.start ++ u32 (w.start + w.window.length) ++
              u8 (if w.muted then 1 else 0) ++ window w.window))

/-- SLOT_STATUS returns the record in the 124 bytes of 11.5, the window descriptor in 35 of them, and SLOT_IDENTITY the L bytes of the identity after L, or
EMPTY; neither changes anything (01 R1, 03 R68, 11 R198). -/
def Obligations.ReportsOfSlot : Prop :=
  ∀ (s : State) (tag : Byte) (i : SlotId), s.takes →
    let c := s.slot i
    let window (d : Descriptor) : List Byte :=
      u8 d.width ++ u8 d.burst ++ u16 d.outTransfers ++ u16 d.inTransfers ++ u8 d.setupCode ++ u8 d.strobeCode ++
        u8 d.holdCode ++ u16 d.setupQ ++ u16 d.strobeQ ++ u16 d.holdQ ++ u16 d.fullAccess ++ u16 d.shortAccess ++
        u16 d.outFull ++ u16 d.outShort ++ u16 d.inFull ++ u16 d.inShort ++ u16 d.stretch ++ u16 d.gap ++ u32 d.length
    (∃ data, exec (.slotStatus tag (slotByte i)) s = .next (s.replied 0x10 tag .ok data) ∧
      data.take 9 = u8 i.val ++ u8 c.state.code ++ u8 c.reason.code ++
        u8 ((if c.early then 1 else 0) + if c.late then 2 else 0) ++ u8 c.allowance ++ u8 c.faultCount ++
        u8 c.overruns ++ u8 c.transitions ++
        u8 ((if c.grant then 1 else 0) + (if c.screening.window.isSome then
          (if c.screening.clamps.stretchClamped then 2 else 0) + (if c.screening.clamps.strobeRaised then 4 else 0) +
            (if c.screening.clamps.accessRaised then 8 else 0) else 0)) ∧
      (data.drop 9).take 7 = u16 c.wordsWritten ++ u16 c.residual ++ optional u16 c.traceRef ∧
      (data.drop 16).take 6 = optional u8 (c.screening.matched.map Fin.val) ++ optional u8 c.screening.rank ++
        optional u8 (c.screening.paramSet.map Fin.val) ∧
      (∀ d, c.screening.window = some d → (data.drop 22).take 36 = 0x01 :: window d) ∧
      (c.screening.window = none → (data.drop 22).take 36 = List.replicate 36 0x00) ∧
      (∀ r, c.screening.identity = some r →
        data.drop 58 = 0x01 :: (u8 r.length ++ r ++ List.replicate (64 - r.length) 0x00)) ∧
      (c.screening.identity = none → data.drop 58 = List.replicate 66 0x00) ∧
      (∀ r, c.screening.identity = some r → r.length ≤ 64 → data.length = 124) ∧
      (c.screening.identity = none → data.length = 124)) ∧
    exec (.slotIdentity tag (slotByte i)) s = .next (
      match c.screening.identity with
      | some r => s.replied 0x11 tag .ok (u8 r.length ++ r)
      | none => s.replied 0x11 tag .empty [])

/-! ### Settings -/

/-- SET_SLOT_TIMES is taken in every state of every slot: each value is stored at the nearer limit of its range, the reply
carries the seven and is CLAMPED exactly when one was moved; running timers, and all else, stand (01 R26). -/
def Obligations.SetSlotTimesClamps : Prop :=
  ∀ (s : State) (tag : Byte) (v : SlotTimesFields), s.takes →
    let near (low high : Nat) (w : Word) : Nat := max low (min high w.toNat)
    let n : SlotTimes :=
      { debounce := near 1 255 v.debounce, rampLimit := near 1 200 v.rampLimit, resetHold := near 1 255 v.resetHold,
        readyTimeout := near 10 10000 v.readyTimeout, consentTimeout := near 1 255 v.consentTimeout,
        cooldown := near 100 5000 v.cooldown, retryLimit := near 0 3 v.retryLimit }
    let seven := [n.debounce, n.rampLimit, n.resetHold, n.readyTimeout, n.consentTimeout, n.cooldown, n.retryLimit]
    let carried := [v.debounce, v.rampLimit, v.resetHold, v.readyTimeout, v.consentTimeout, v.cooldown, v.retryLimit]
    exec (.setSlotTimes tag v) s = .next (({ s with times := n } : State).replied 0x03 tag
      (if seven = carried.map BitVec.toNat then .ok else .clamped) (seven.flatMap u16))

/-- SET_POWER: a budget or ramp limit outside its range is answered BAD_ARGUMENT, one below the committed power or the
ramping count WRONG_STATE, and nothing changes; else the six are stored, the monitor's four at the nearer limit, held
overload thresholds are recomputed, a lowered budget refuses the queued slots above it with POWER_RANGE, and the head of
the queue is examined. Every reply carries the six in force (05 R85 to R88, R92). -/
def Obligations.SetPowerJudged : Prop :=
  ∀ (s : State) (tag : Byte) (v : PowerFields), s.takes →
    let held := [s.arbiter.budget, s.arbiter.rampLimit, s.monitor.margin, s.monitor.inrush, s.monitor.filter,
      s.monitor.railDip].flatMap u16
    let inRange := 10 ≤ v.budget.toNat ∧ v.budget.toNat ≤ 20000 ∧ 1 ≤ v.rampLimit.toNat ∧ v.rampLimit.toNat ≤ 4
    let covered := s.arbiter.committed ≤ v.budget.toNat ∧ s.arbiter.ramping ≤ v.rampLimit.toNat
    let near (low high : Nat) (w : Word) : Nat := max low (min high w.toNat)
    let m : Monitor := { s.monitor with margin := near 110 200 v.margin, inrush := near 100 1600 v.inrush,
                                        filter := near 1 50 v.filter, railDip := near 1000 2400 v.railDip }
    (¬ inRange → exec (.setPower tag v) s = .next (s.replied 0x04 tag .badArgument held)) ∧
    (inRange → ¬ covered → exec (.setPower tag v) s = .next (s.replied 0x04 tag .wrongState held)) ∧
    (inRange → covered → s.queuesSound → ∃ t, exec (.setPower tag v) s = .next (transmit t) ∧
      t.arbiter.budget = v.budget.toNat ∧ t.arbiter.rampLimit = v.rampLimit.toNat ∧ t.monitor = m ∧
      Answers s t 0x04 tag
        (if [m.margin, m.inrush, m.filter, m.railDip] = [v.margin, v.inrush, v.filter, v.railDip].map BitVec.toNat
          then .ok else .clamped)
        ([v.budget.toNat, v.rampLimit.toNat, m.margin, m.inrush, m.filter, m.railDip].flatMap u16) ∧
      (∀ i, i ∉ s.arbiter.queue.map PowerEntry.slot →
        let code := min 4095 ((((((s.slot i).power * 25 + 5) / 6) * m.margin + 99) / 100 + 4) / 5)
        t.slot i = { s.slot i with threshold := (s.slot i).threshold.map fun _ => code }) ∧
      (∀ e ∈ s.arbiter.queue, v.budget.toNat < s.arbiter.budget → v.budget.toNat < e.power →
        Entered e.slot .refused .powerRange 1 s t ∧ e.slot ∉ t.arbiter.queue.map PowerEntry.slot) ∧
      (∀ e ∈ s.arbiter.queue, s.arbiter.budget ≤ v.budget.toNat ∨ e.power ≤ v.budget.toNat →
        e ∈ t.arbiter.queue ∧ (t.slot e.slot).state = .powerWait ∨
          Entered e.slot .powering .none 1 s t ∧ (t.slot e.slot).grant = true) ∧
      t.arbiter.queue <:+ s.arbiter.queue.filter (fun e =>
        decide (s.arbiter.budget ≤ v.budget.toNat ∨ e.power ≤ v.budget.toNat)) ∧
      t.arbiter.blocked ∧
      (s.arbiter.queue = [] → t.arbiter.committed = s.arbiter.committed ∧ t.arbiter.ramping = s.arbiter.ramping ∧
        t.engine = s.engine ∧ t.sets = s.sets ∧ t.sequencer = s.sequencer ∧ t.recorder = s.recorder ∧
        t.planner = s.planner) ∧
      t.pending = s.pending ∧ t.times = s.times ∧ t.policy = s.policy ∧ t.keys = s.keys ∧
      t.planner.settings = s.planner.settings ∧
      { t.recorder with gateReports := s.recorder.gateReports } = s.recorder ∧
      { t.sequencer with active := s.sequencer.active, run := s.sequencer.run } = s.sequencer ∧
      (∀ n : Fin 8, { t.sets[n] with pins := s.sets[n].pins } = s.sets[n]))

/-- SET_CYCLE: an unknown mode or a value out of range is answered BAD_ARGUMENT, a change of mode away from MASTER or
FOLLOWER while a slot is in JOINING or RUNNING WRONG_STATE, and settings whose plan limit the pending plan passes
WONT_FIT, with nothing changed; else the planning settings are stored, a new mode takes the sequencer to its state with
the new values in force and a notice, an unchanged one leaves the sequencer as it is, and when the mode leaves OFF or
the usable span grows the room queue is walked: each slot once, the oldest first, against the plan as it then stands, a
slot that does not fit keeping its place (07 R133, 08 R139 to R141, R144, R149). -/
def Obligations.SetCycleJudged : Prop :=
  ∀ (s : State) (tag mode : Byte) (length : Long) (tolerance : Word), s.takes →
    let report (u : State) := u8 u.planner.settings.mode.code ++ u32 u.planner.settings.length ++
      u16 u.planner.settings.tolerance ++ u32 u.sequencer.length ++ u16 u.sequencer.tolerance ++
      u8 u.sequencer.state.code
    let inRange := mode.toNat ≤ 2 ∧ 2500 ≤ length.toNat ∧ length.toNat ≤ 500000 ∧ 10 ≤ tolerance.toNat ∧
      tolerance.toNat ≤ 500
    let command := Instr.setCycle tag mode length tolerance
    (¬ inRange → exec command s = .next (s.replied 0x05 tag .badArgument (report s))) ∧
    ∀ m : CycleMode, m.code = mode.toNat → inRange →
      let busy := m ≠ s.planner.settings.mode ∧ s.planner.settings.mode ≠ .off ∧
        ∃ i, (s.slot i).state = .joining ∨ (s.slot i).state = .running
      let limit := if m = .follower then length.toNat - tolerance.toNat - 250 else length.toNat - 250
      let fits := m = .off ∨ s.planner.plan = [] ∨
        50 + (s.planner.plan.map fun w => w.window.length).sum ≤ limit
      let span (v : CycleSettings) := if v.mode = .follower then v.length - v.tolerance - 300 else v.length - 300
      let v : CycleSettings := { mode := m, length := length.toNat, tolerance := tolerance.toNat }
      let walks := s.planner.settings.mode = .off ∧ m ≠ .off ∨ span s.planner.settings < span v
      let tried (done : List PlanWindow × List SlotId) (i : SlotId) : List PlanWindow × List SlotId :=
        match (s.slot i).screening.rank, (s.slot i).screening.window with
        | some rank, some window =>
          let plan := placeWindow { slot := i, rank := rank, window := window } done.1
          if m ≠ .off ∧ 50 + (plan.map fun w => w.window.length).sum ≤ limit then (plan, done.2) else (done.1, done.2 ++ [i])
        | _, _ => (done.1, done.2 ++ [i])
      (busy → exec command s = .next (s.replied 0x05 tag .wrongState (report s))) ∧
      (¬ busy → ¬ fits → exec command s = .next (s.replied 0x05 tag .wontFit (report s))) ∧
      (¬ busy → fits → ∃ t, exec command s = .next (transmit t) ∧ t.planner.settings = v ∧ Answers s t 0x05 tag .ok (report t) ∧
        (m = s.planner.settings.mode → t.sequencer = s.sequencer) ∧
        (m ≠ s.planner.settings.mode → t.postedCycle .stateChange ∧ t.sequencer = { s.sequencer with
          state := match m with
            | .off => .stopped
            | .master => .running
            | .follower => .seeking
          length := length.toNat, tolerance := tolerance.toNat, markLow := decide (m = .master), longPulse := false,
          next := none, run := none }) ∧
        (¬ walks → t.slots = s.slots ∧ t.planner = { s.planner with settings := v }) ∧
        (walks → (∀ i ∈ t.planner.room, tryPlace i t = none) ∧ t.planner.room.Sublist s.planner.room ∧
          (∀ w ∈ s.planner.plan, w ∈ t.planner.plan) ∧
          ∀ i ∈ s.planner.room, i ∉ t.planner.room →
            (t.slot i).state = .joining ∧ (t.slot i).reason = .none ∧ t.posted i ∧
              i ∈ t.planner.plan.map PlanWindow.slot) ∧
        (walks → s.planner.room.Nodup →
          (t.planner.plan, t.planner.room) = s.planner.room.foldl tried (s.planner.plan, [])) ∧
        (∀ i, i ∉ s.planner.room → t.slot i = s.slot i) ∧
        { t with slots := s.slots, planner := s.planner, sequencer := s.sequencer, link := s.link,
                 recorder := s.recorder } = s ∧
        { t.recorder with gateReports := s.recorder.gateReports } = s.recorder ∧
        { t.link with replies := s.link.replies, notices := s.link.notices } = s.link)

/-! ### The host's slot commands -/

/-- SLOT_PARK in the eight states it is taken in, and SLOT_DISABLE in every state but DISABLED, take the power-down actions
and move the slot to PARKED with HOST_PARK or DISABLED with HOST_DISABLE; what each keeps stands. Completions already sent
to the slot are taken first, which leaves u, and the command is taken from u: a slot that they have moved out of the eight
states is not parked (02 R45, log 37). SLOT_DISABLE in DISABLED is answered OK and changes nothing (01 R9, R20, R23). -/
def Obligations.ParkAndDisablePowerDown : Prop :=
  ∀ (s : State) (tag : Byte) (i : SlotId), s.takes →
    let parkable (v : State) : Prop := (v.slot i).state ∈ [.powerWait, .powering, .resetHold, .readyWait, .configuring,
      .roomWait, .joining, .running]
    (parkable s → ∃ u, s.caughtUp i u ∧ ((s.slot i).inbox.completions = [] → u = s) ∧
      (parkable u → ∃ t, exec (.slotPark tag (slotByte i)) s = .next (transmit t) ∧ Entered i .parked .hostPark 1 u t ∧
        PoweredDown i u t ∧ SlotFrame i u t ∧ Keeps i u t ∧ (t.slot i).overruns = (u.slot i).overruns ∧
        Answers u t 0x13 tag .ok []) ∧
      (¬ parkable u → exec (.slotPark tag (slotByte i)) s = .next (u.replied 0x13 tag .wrongState []))) ∧
    ((s.slot i).state ≠ .disabled →
      ∃ u t, s.caughtUp i u ∧ ((s.slot i).inbox.completions = [] → u = s) ∧
        exec (.slotDisable tag (slotByte i)) s = .next (transmit t) ∧ Entered i .disabled .hostDisable 1 u t ∧
        PoweredDown i u t ∧ SlotFrame i u t ∧ (t.slot i).screening = Screening.absent ∧
        (t.slot i).allowance = (u.slot i).allowance ∧ (t.slot i).faultCount = (u.slot i).faultCount ∧
        (t.slot i).overruns = (u.slot i).overruns ∧ Answers u t 0x16 tag .ok []) ∧
    ((s.slot i).state = .disabled →
      exec (.slotDisable tag (slotByte i)) s = .next (s.replied 0x16 tag .ok []))

/-- SLOT_RESUME of a PARKED slot enters POWER_WAIT with its budget check; SLOT_RESTART from REFUSED, FAULTED or PARKED
clears the fault count and enters IDENTIFYING; SLOT_ENABLE of a DISABLED slot clears the fault count, SLOT_CLEAR_BAR of
a BARRED slot under an open policy restores the allowance to 3 and drops the screening results, and both go where the
contacts call for (01 R7, R8, R21, R22, R24, R25, 04 R81, 05 R91). -/
def Obligations.SlotsReturnOnCommand : Prop :=
  ∀ (s : State) (tag : Byte) (i : SlotId), s.takes →
    let called (c : Slot) : SlotState :=
      if c.allowance = 0 then .barred else if c.early = false then .empty else if c.late = false then .mating
      else .identifying
    let returns (u t : State) := (called (u.slot i) = .identifying → Identifies i .none 1 u t) ∧
      (called (u.slot i) ≠ .identifying → Entered i (called (u.slot i)) .none 1 u t ∧ Local i u t)
    let cleared := s.setSlot i { s.slot i with allowance := 3 }
    ((s.slot i).state = .parked →
      ∃ t, exec (.slotResume tag (slotByte i)) s = .next (transmit t) ∧ JoinsPower i s t ∧ Answers s t 0x14 tag .ok []) ∧
    ((s.slot i).state ∈ [.refused, .faulted, .parked] →
      ∃ t, exec (.slotRestart tag (slotByte i)) s = .next (transmit t) ∧ Identifies i .none 1 s t ∧ (t.slot i).faultCount = 0 ∧
        (t.slot i).allowance = (s.slot i).allowance ∧ Answers s t 0x15 tag .ok []) ∧
    ((s.slot i).state = .disabled →
      ∃ t, exec (.slotEnable tag (slotByte i)) s = .next (transmit t) ∧ returns s t ∧ (t.slot i).faultCount = 0 ∧
        (t.slot i).allowance = (s.slot i).allowance ∧ Answers s t 0x17 tag .ok []) ∧
    ((s.slot i).state = .barred → s.policy.frozen = false →
      ∃ t, exec (.slotClearBar tag (slotByte i)) s = .next (transmit t) ∧ returns cleared t ∧ (t.slot i).allowance = 3 ∧
        (t.slot i).screening = Screening.absent ∧ (t.slot i).faultCount = (s.slot i).faultCount ∧
        (t.slot i).state ∈ [.empty, .mating, .identifying] ∧ Answers s t 0x18 tag .ok [])

/-- SLOT_CONSENT in CONSENT_WAIT: ADMIT moves a card whose key mask, bits 0 to 3, is not 0 to UNLOCKING with a status read
issued, and any other to POWER_WAIT with its budget check; REFUSE moves the slot to REFUSED with HOST_REFUSED. The consent
timer ends and the screening results stand (03 R66, 04 R73). -/
def Obligations.ConsentDecides : Prop :=
  ∀ (s : State) (tag : Byte) (i : SlotId), s.takes → (s.slot i).state = .consentWait →
    let keyed := ∃ r, (s.slot i).screening.identity = some r ∧ ∃ k < 4, (r.getD 10 0).getLsbD k = true
    (keyed → ∃ t, exec (.slotConsent tag (slotByte i) 0x00) s = .next (transmit t) ∧ Entered i .unlocking .none 1 s t ∧
      (t.slot i).walkPos = 0 ∧ (t.slot i).offers = 0 ∧ Keeps i s t ∧ SlotFrame i s t ∧
      { slot := i, transaction := .statusRead } ∈ t.engine.jobs ∧ Local i s { t with engine := s.engine } ∧
      Answers s t 0x12 tag .ok []) ∧
    (¬ keyed → ∃ t, exec (.slotConsent tag (slotByte i) 0x00) s = .next (transmit t) ∧ JoinsPower i s t ∧
      Answers s t 0x12 tag .ok []) ∧
    ∃ t, exec (.slotConsent tag (slotByte i) 0x01) s = .next (transmit t) ∧ Entered i .refused .hostRefused 1 s t ∧ Local i s t ∧
      Keeps i s t ∧ Answers s t 0x12 tag .ok []

/-- Every slot command with a slot number above 11, and SLOT_CONSENT with a decision other than ADMIT and REFUSE, is
answered BAD_ARGUMENT; a command that is not taken in the slot's state is answered WRONG_STATE, SLOT_CLEAR_BAR of a BARRED
slot under a frozen policy FROZEN. Nothing but the reply queue changes (01 R1, R19 to R25, 03 R66, R68). -/
def Obligations.SlotCommandsRefused : Prop :=
  ∀ (s : State) (tag : Byte), s.takes →
    (∀ b d : Byte, 11 < b.toNat →
      ∀ p ∈ [((0x10 : Byte), Instr.slotStatus tag b), (0x11, .slotIdentity tag b), (0x12, .slotConsent tag b d),
          (0x13, .slotPark tag b), (0x14, .slotResume tag b), (0x15, .slotRestart tag b), (0x16, .slotDisable tag b),
          (0x17, .slotEnable tag b), (0x18, .slotClearBar tag b)],
        exec p.2 s = .next (s.replied p.1 tag .badArgument [])) ∧
    ∀ i : SlotId,
      let st := (s.slot i).state
      (∀ d : Byte, 1 < d.toNat →
        exec (.slotConsent tag (slotByte i) d) s = .next (s.replied 0x12 tag .badArgument [])) ∧
      (∀ d : Byte, d.toNat ≤ 1 → st ≠ .consentWait →
        exec (.slotConsent tag (slotByte i) d) s = .next (s.replied 0x12 tag .wrongState [])) ∧
      (st ∉ [.powerWait, .powering, .resetHold, .readyWait, .configuring, .roomWait, .joining, .running] →
        exec (.slotPark tag (slotByte i)) s = .next (s.replied 0x13 tag .wrongState [])) ∧
      (st ≠ .parked → exec (.slotResume tag (slotByte i)) s = .next (s.replied 0x14 tag .wrongState [])) ∧
      (st ∉ [.refused, .faulted, .parked] →
        exec (.slotRestart tag (slotByte i)) s = .next (s.replied 0x15 tag .wrongState [])) ∧
      (st ≠ .disabled → exec (.slotEnable tag (slotByte i)) s = .next (s.replied 0x17 tag .wrongState [])) ∧
      (st ≠ .barred → exec (.slotClearBar tag (slotByte i)) s = .next (s.replied 0x18 tag .wrongState [])) ∧
      (st = .barred → s.policy.frozen = true →
        exec (.slotClearBar tag (slotByte i)) s = .next (s.replied 0x18 tag .frozen []))

/-! ### Policy and keys -/

/-- POLICY_WRITE under an open policy replaces the entry and replies with it as stored, ADMIT, rank 0 and no set for UNUSED
and REJECT; an entry above 15, an unknown kind, and for ACCEPT an unknown action, a rank of 0 or a set above 7 other than
FFh are answered BAD_ARGUMENT; under the freeze FROZEN. POLICY_READ reports an entry, the default and the freeze flag;
POLICY_FREEZE sets the flag (03 R57, R58, R60; the freeze flag as one byte after the default is log 20). -/
def Obligations.PolicyWriteReadFreeze : Prop :=
  ∀ (s : State) (tag : Byte), s.takes →
    let bytes (e : PolicyEntry) := u8 e.kind.code ++ u32 e.pattern.toNat ++ u32 e.mask.toNat ++ u8 e.action.code ++
      u8 e.rank ++ [match e.set with
        | some n => BitVec.ofNat 8 n.val
        | none => 0xFF]
    let wrote (n : Fin 16) (e : PolicyEntry) : State :=
      ({ s with policy := { s.policy with entries := s.policy.entries.set n e } } : State).replied 0x20 tag .ok (bytes e)
    (∀ v, s.policy.frozen = true → exec (.policyWrite tag v) s = .next (s.replied 0x20 tag .frozen [])) ∧
    (∀ v, s.policy.frozen = false →
      (15 < v.entry.toNat ∨ 2 < v.kind.toNat ∨
        v.kind.toNat = 1 ∧ (1 < v.action.toNat ∨ v.rank.toNat = 0 ∨ 7 < v.set.toNat ∧ v.set.toNat ≠ 255)) →
      exec (.policyWrite tag v) s = .next (s.replied 0x20 tag .badArgument [])) ∧
    (∀ (v : PolicyFields) (n : Fin 16), s.policy.frozen = false → v.entry.toNat = n.val →
      (v.kind.toNat = 0 → exec (.policyWrite tag v) s = .next (wrote n
        { kind := .unused, pattern := v.pattern, mask := v.mask, action := .allow, rank := 0, set := none })) ∧
      (v.kind.toNat = 2 → exec (.policyWrite tag v) s = .next (wrote n
        { kind := .reject, pattern := v.pattern, mask := v.mask, action := .allow, rank := 0, set := none })) ∧
      ∀ action : PolicyAction, v.kind.toNat = 1 → v.action.toNat = action.code → v.rank.toNat ≠ 0 →
        (v.set.toNat = 255 → exec (.policyWrite tag v) s = .next (wrote n
          { kind := .accept, pattern := v.pattern, mask := v.mask, action := action, rank := v.rank.toNat,
            set := none })) ∧
        ∀ k : Fin 8, v.set.toNat = k.val → exec (.policyWrite tag v) s = .next (wrote n
          { kind := .accept, pattern := v.pattern, mask := v.mask, action := action, rank := v.rank.toNat,
            set := some k })) ∧
    (∀ b : Byte, 15 < b.toNat → exec (.policyRead tag b) s = .next (s.replied 0x21 tag .badArgument [])) ∧
    (∀ (b : Byte) (n : Fin 16), b.toNat = n.val → exec (.policyRead tag b) s = .next (s.replied 0x21 tag .ok
      (bytes s.policy.entries[n] ++ u8 s.policy.default.code ++ u8 (if s.policy.frozen then 1 else 0)))) ∧
    exec (.policyFreeze tag) s =
      .next (({ s with policy := { s.policy with frozen := true } } : State).replied 0x23 tag .ok [])

/-- POLICY_DEFAULT under the freeze is answered FROZEN; else an unknown action BAD_ARGUMENT, and a known one replaces the
default action and is answered OK. The default CONSENT gives rank 255 and no parameter set (03 R59). -/
def Obligations.PolicyDefaultReplaced : Prop :=
  ∀ (s : State) (tag b : Byte), s.takes →
    (s.policy.frozen = true → exec (.policyDefault tag b) s = .next (s.replied 0x22 tag .frozen [])) ∧
    (s.policy.frozen = false → 1 < b.toNat →
      exec (.policyDefault tag b) s = .next (s.replied 0x22 tag .badArgument [])) ∧
    (∀ d : DefaultAction, s.policy.frozen = false → b.toNat = d.code →
      exec (.policyDefault tag b) s =
        .next (({ s with policy := { s.policy with default := d } } : State).replied 0x22 tag .ok [])) ∧
    ∀ (p : Policy) (code : Long), p.default = .consent → p.lowest .reject code = none → p.lowest .accept code = none →
      p.verdict code = .accept .consent none 255 none

/-- KEY_LOAD and KEY_ERASE under an open policy replace one key slot and reply with its number and the four loaded flags;
under the freeze they are answered FROZEN, above key slot 3 BAD_ARGUMENT. KEY_STATUS replies with the four flags
(04 R69 to R72; the four flags as four bytes, key slot 0 first, are log 20). -/
def Obligations.KeysLoadedAndErased : Prop :=
  ∀ (s : State) (tag : Byte), s.takes →
    let flags (keys : Vector KeySlot 4) : List Byte := keys.toList.map fun k => if k.loaded then 0x01 else 0x00
    (∀ (b : Byte) (key : List Byte), key.length = 16 →
      (s.policy.frozen = true → exec (.keyLoad tag b key) s = .next (s.replied 0x24 tag .frozen [])) ∧
      (s.policy.frozen = false → 3 < b.toNat →
        exec (.keyLoad tag b key) s = .next (s.replied 0x24 tag .badArgument [])) ∧
      ∀ k : Fin 4, s.policy.frozen = false → b.toNat = k.val →
        let keys := s.keys.set k { loaded := true, key := key }
        exec (.keyLoad tag b key) s =
          .next (({ s with keys := keys } : State).replied 0x24 tag .ok (u8 k.val ++ flags keys))) ∧
    (∀ b : Byte,
      (s.policy.frozen = true → exec (.keyErase tag b) s = .next (s.replied 0x25 tag .frozen [])) ∧
      (s.policy.frozen = false → 3 < b.toNat →
        exec (.keyErase tag b) s = .next (s.replied 0x25 tag .badArgument [])) ∧
      ∀ k : Fin 4, s.policy.frozen = false → b.toNat = k.val →
        let keys := s.keys.set k { loaded := false, key := List.replicate 16 0x00 }
        exec (.keyErase tag b) s =
          .next (({ s with keys := keys } : State).replied 0x25 tag .ok (u8 k.val ++ flags keys))) ∧
    exec (.keyStatus tag) s = .next (s.replied 0x26 tag .ok (flags s.keys))

/-! ### Parameter sets -/

/-- PARAM_BEGIN, PARAM_FREE and PARAM_STATUS: a set above 7 is answered BAD_ARGUMENT, a pinned set SET_IN_USE to the first
two, a length outside 1 to 512 BAD_ARGUMENT; a taken PARAM_BEGIN puts the set in LOADING at the new length with nothing
written, a taken PARAM_FREE makes it EMPTY, PARAM_STATUS changes nothing (06 R109, R111; which replies carry the set is
log 21, the byte of a set's state log 36). -/
def Obligations.ParamBeginFreeStatus : Prop :=
  ∀ (s : State) (tag b : Byte), s.takes →
    let bytes (p : ParamSet) := u8 p.state.code ++ u16 p.length ++ u16 p.words.length ++ u8 p.pins
    (∀ length, 7 < b.toNat → exec (.paramBegin tag b length) s = .next (s.replied 0x30 tag .badArgument []) ∧
      exec (.paramStatus tag b) s = .next (s.replied 0x32 tag .badArgument []) ∧
      exec (.paramFree tag b) s = .next (s.replied 0x33 tag .badArgument [])) ∧
    ∀ n : Fin 8, b.toNat = n.val →
      let p := s.sets[n]
      exec (.paramStatus tag b) s = .next (s.replied 0x32 tag .ok (bytes p)) ∧
      (0 < p.pins → (∀ length, exec (.paramBegin tag b length) s = .next (s.replied 0x30 tag .setInUse (bytes p))) ∧
        exec (.paramFree tag b) s = .next (s.replied 0x33 tag .setInUse [])) ∧
      (p.pins = 0 →
        (∀ length : Word, length.toNat < 1 ∨ 512 < length.toNat →
          exec (.paramBegin tag b length) s = .next (s.replied 0x30 tag .badArgument (bytes p))) ∧
        (∀ length : Word, 1 ≤ length.toNat → length.toNat ≤ 512 →
          let begun : ParamSet := { state := .loading, length := length.toNat, words := [], pins := 0 }
          exec (.paramBegin tag b length) s =
            .next (({ s with sets := s.sets.set n begun } : State).replied 0x30 tag .ok (bytes begun))) ∧
        let freed : ParamSet := { state := .empty, length := 0, words := [], pins := 0 }
        exec (.paramFree tag b) s = .next (({ s with sets := s.sets.set n freed } : State).replied 0x33 tag .ok []))

/-- PARAM_LOAD in the order of 06 R110: set number, pin, state, word count, words carried, offset, room; a taken load
appends its words, and the one that completes the set makes it READY and announces it to all twelve slots (06 R110,
R112; the bare BAD_LENGTH reply is log 21, the byte of a set's state log 36). -/
def Obligations.ParamLoadAppendsWords : Prop :=
  ∀ (s : State) (tag b : Byte) (offset : Word) (count : Byte) (words : List Word),
    s.takes → 1 ≤ words.length → words.length ≤ 110 →
    let bytes (p : ParamSet) := u8 p.state.code ++ u16 p.length ++ u16 p.words.length ++ u8 p.pins
    let outcome := exec (.paramLoad tag b offset count words) s
    (7 < b.toNat → outcome = .next (s.replied 0x31 tag .badArgument [])) ∧
    ∀ n : Fin 8, b.toNat = n.val →
      let p := s.sets[n]
      let refused (status : Status) := outcome = .next (s.replied 0x31 tag status (bytes p))
      let counted := 1 ≤ count.toNat ∧ count.toNat ≤ 110
      let placed := offset.toNat = p.words.length ∧ offset.toNat + count.toNat ≤ p.length
      (0 < p.pins → refused .setInUse) ∧
      (p.pins = 0 → p.state ≠ .loading → refused .wrongState) ∧
      (p.pins = 0 → p.state = .loading → ¬ counted → refused .badArgument) ∧
      (p.pins = 0 → p.state = .loading → counted → words.length ≠ count.toNat →
        outcome = .next (s.replied 0x31 tag .badLength [])) ∧
      (p.pins = 0 → p.state = .loading → counted → words.length = count.toNat → ¬ placed → refused .badArgument) ∧
      (p.pins = 0 → p.state = .loading → counted → words.length = count.toNat → placed →
        let q : ParamSet := { p with words := p.words ++ words }
        (offset.toNat + count.toNat < p.length →
          outcome = .next (({ s with sets := s.sets.set n q } : State).replied 0x31 tag .ok (bytes q))) ∧
        (offset.toNat + count.toNat = p.length → ∃ t, outcome = .next (transmit t) ∧
          t.sets = s.sets.set n { q with state := .ready } ∧
          (∀ i, t.slot i = { s.slot i with inbox := { (s.slot i).inbox with
            announcements := (s.slot i).inbox.announcements ++ [n] } }) ∧
          Answers s t 0x31 tag .ok (bytes { q with state := .ready }) ∧
          { t with sets := s.sets, slots := s.slots, link := s.link } = s ∧
          { t.link with replies := s.link.replies } = s.link))

/-! ### Contacts and timers of a slot -/

/-- CONTACT_RAW_CHANGE: a LATE break in a card-present state is removal at once, with the power-down actions, LATE open, its
debounce cancelled, and REMOVING with LATE_BREAK; any other change of level starts the contact's debounce with the time in
force, or cancels it when the level returns to the debounced state. Completions already sent to the slot are taken before a
removal, which leaves u; a slot that they have barred only debounces the break (01 R5, R9, R10, 02 R45; that they are taken
then is log 37). A level the pin has already is no change (log 4). -/
def Obligations.ContactChangeDebouncedOrRemoves : Prop :=
  ∀ (s : State) (i : SlotId) (made : Bool), s.inReset = false →
    let c := s.slot i
    let present (st : SlotState) : Prop := st ∈ [.identifying, .consentWait, .unlocking, .powerWait, .powering, .resetHold,
      .readyWait, .configuring, .roomWait, .joining, .running, .parked, .refused, .faulted, .cooldown]
    let moved (d : Slot) (time : Nat) : Slot :=
      { d with lateRaw := made, debounceLate := if made = d.late then none else some time }
    (made ≠ c.earlyRaw → exec (.contactRawChange i .early made) s = .next (s.setSlot i { c with
      earlyRaw := made, debounceEarly := if made = c.early then none else some s.times.debounce })) ∧
    (made ≠ c.lateRaw → ¬ (made = false ∧ present c.state) →
      exec (.contactRawChange i .late made) s = .next (s.setSlot i (moved c s.times.debounce))) ∧
    (made ≠ c.lateRaw → made = false → present c.state →
      ∃ u, s.caughtUp i u ∧ (c.inbox.completions = [] → u = s) ∧
        (present (u.slot i).state →
          let opened := u.setSlot i { u.slot i with lateRaw := false, late := false, debounceLate := none }
          ∃ t, exec (.contactRawChange i .late made) s = .next (transmit t) ∧
            Entered i .removing .lateBreak 1 opened t ∧ PoweredDown i u t ∧ SlotFrame i u t ∧ Keeps i u t ∧
            (t.slot i).overruns = (u.slot i).overruns ∧ t.link.replies = s.link.replies) ∧
        (¬ present (u.slot i).state → exec (.contactRawChange i .late made) s =
          .next (u.setSlot i (moved (u.slot i) s.times.debounce)))) ∧
    (made = c.earlyRaw → exec (.contactRawChange i .early made) s = .next s) ∧
    (made = c.lateRaw → exec (.contactRawChange i .late made) s = .next s)

/-- DEBOUNCE_EXPIRY: the debounced state takes the raw value and the slot acts by its state: EMPTY goes to MATING, or
through it to IDENTIFYING with LATE made already; MATING to IDENTIFYING or back to EMPTY; REMOVING to EMPTY with the fault
count cleared, or to IDENTIFYING; an EARLY break in a card-present state powers down to EMPTY with EARLY_BREAK; DISABLED
and BARRED only take the value (01 R5, R6, R11 to R13). A LATE found open in a card-present state is removal (log 15).
Completions already sent to the slot are taken before a break in a card-present state, which leaves x (02 R45, log 37). An
expiry of a timer that does not run is discarded (R27). -/
def Obligations.DebounceExpiryActsByState : Prop :=
  ∀ (s : State) (i : SlotId), s.inReset = false →
    let c := s.slot i
    let present (st : SlotState) : Prop := st ∉ [.empty, .mating, .removing, .disabled, .barred]
    let early (x : State) : State := x.setSlot i { x.slot i with early := c.earlyRaw, debounceEarly := none }
    let late (x : State) : State := x.setSlot i { x.slot i with late := c.lateRaw, debounceLate := none }
    let answers (contact : Contact) (p : State → Prop) : Prop :=
      ∃ t, exec (.debounceExpiry i contact) s = .next (transmit t) ∧ t.link.replies = s.link.replies ∧ p t
    (c.debounceEarly = none → exec (.debounceExpiry i .early) s = .next s) ∧
    (c.debounceLate = none → exec (.debounceExpiry i .late) s = .next s) ∧
    (c.debounceEarly.isSome →
      (c.state = .empty → c.earlyRaw = true → c.late = false → answers .early fun t =>
        Entered i .mating .none 1 (early s) t ∧ Local i s t ∧ Keeps i s t) ∧
      (c.state = .empty → c.earlyRaw = true → c.late = true → answers .early fun t =>
        Identifies i .none 2 (early s) t ∧ (t.slot i).faultCount = c.faultCount ∧
        (t.slot i).allowance = c.allowance) ∧
      (c.state = .mating → c.earlyRaw = false → answers .early fun t => Entered i .empty .none 1 (early s) t ∧
        Local i s t ∧ (t.slot i).faultCount = c.faultCount ∧ (t.slot i).allowance = c.allowance) ∧
      (c.state = .removing → c.earlyRaw = false → answers .early fun t => Entered i .empty .none 1 (early s) t ∧
        Local i s t ∧ (t.slot i).screening = Screening.absent ∧ (t.slot i).faultCount = 0 ∧
        (t.slot i).overruns = 0 ∧ (t.slot i).allowance = c.allowance) ∧
      (present c.state → c.earlyRaw = false →
        ∃ x, s.caughtUp i x ∧ (c.inbox.completions = [] → x = s) ∧
          (present (x.slot i).state → answers .early fun t => Entered i .empty .earlyBreak 1 (early x) t ∧
            PoweredDown i x t ∧ SlotFrame i x t ∧ (t.slot i).screening = Screening.absent ∧
            (t.slot i).faultCount = 0 ∧ (t.slot i).overruns = 0 ∧
            (t.slot i).allowance = (x.slot i).allowance) ∧
          (¬ present (x.slot i).state → answers .early fun t => t = early x)) ∧
      (c.state = .empty ∧ c.earlyRaw = false ∨ c.state = .mating ∧ c.earlyRaw = true ∨
          c.state = .removing ∧ c.earlyRaw = true ∨ c.state = .disabled ∨ c.state = .barred ∨
          present c.state ∧ c.earlyRaw = true → answers .early fun t => t = early s)) ∧
    (c.debounceLate.isSome →
      (c.state = .mating ∨ c.state = .removing → c.lateRaw = true → answers .late fun t =>
        Identifies i .none 1 (late s) t ∧ (t.slot i).faultCount = c.faultCount ∧
        (t.slot i).allowance = c.allowance) ∧
      (present c.state → c.lateRaw = false →
        ∃ x, s.caughtUp i x ∧ (c.inbox.completions = [] → x = s) ∧
          (present (x.slot i).state → answers .late fun t => Entered i .removing .lateBreak 1 (late x) t ∧
            PoweredDown i x t ∧ SlotFrame i x t ∧ Keeps i x t) ∧
          (¬ present (x.slot i).state → answers .late fun t => t = late x)) ∧
      (c.state = .empty ∨ c.state = .disabled ∨ c.state = .barred ∨
          (c.state = .mating ∨ c.state = .removing) ∧ c.lateRaw = false ∨ present c.state ∧ c.lateRaw = true →
        answers .late fun t => t = late s))

/-- The state timers' expiries: COOLDOWN goes to IDENTIFYING after SETUP_BUS and else to POWER_WAIT; CONSENT_WAIT to REFUSED
with CONSENT_TIMEOUT; POWERING faults with PG_TIMEOUT and READY_WAIT with NOT_READY; RESET_HOLD goes to READY_WAIT with the
ready timer, a status read and a 5 ms poll interval; a poll interval issues the next read, or notes it as due while a job
of the slot is in the engine. An expiry of a timer that does not run is discarded (01 R15 to R17, R27, 03 R67, 05 R98,
R101, R102, R104). -/
def Obligations.TimerExpiriesActByState : Prop :=
  ∀ (s : State) (i : SlotId), s.inReset = false →
    let c := s.slot i
    let read : Job := { slot := i, transaction := .statusRead }
    (c.state = .cooldown → c.timers.cooldown.isSome → ∃ t, exec (.cooldownExpiry i) s = .next (transmit t) ∧
      t.link.replies = s.link.replies ∧ (t.slot i).faultCount = c.faultCount ∧ (t.slot i).allowance = c.allowance ∧
      (c.reason = .setupBus → Identifies i .none 1 s t) ∧ (c.reason ≠ .setupBus → JoinsPower i s t)) ∧
    (c.state = .consentWait → c.timers.consent.isSome → ∃ t, exec (.consentTimeout i) s = .next (transmit t) ∧
      Entered i .refused .consentTimeout 1 s t ∧ Local i s t ∧ Keeps i s t ∧ t.link.replies = s.link.replies) ∧
    (c.state = .powering → c.timers.ramp.isSome → ∃ t, exec (.rampTimerExpiry i) s = .next (transmit t) ∧
      Faults i .pgTimeout 1 s t ∧ t.link.replies = s.link.replies) ∧
    (c.state = .readyWait → c.timers.ready.isSome → ∃ t, exec (.readyTimeout i) s = .next (transmit t) ∧
      Faults i .notReady 1 s t ∧ t.link.replies = s.link.replies) ∧
    (c.state = .resetHold → c.timers.resetHold.isSome → ∃ t, exec (.resetHoldExpiry i) s = .next (transmit t) ∧
      Entered i .readyWait .none 1 s t ∧ SlotFrame i s t ∧ Local i s { t with engine := s.engine } ∧ Keeps i s t ∧
      (t.slot i).grant = c.grant ∧ (t.slot i).threshold = c.threshold ∧
      (t.slot i).timers.ready = some s.times.readyTimeout ∧ (t.slot i).timers.poll = some 5 ∧
      read ∈ t.engine.jobs ∧ t.link.replies = s.link.replies) ∧
    (c.state = .readyWait → c.timers.poll.isSome → s.engine.hasJob i = true → exec (.pollIntervalExpiry i) s =
      .next (s.setSlot i { c with pollDue := true, timers := { c.timers with poll := none } })) ∧
    (c.state = .readyWait → c.timers.poll.isSome → s.engine.hasJob i = false → ∃ t,
      exec (.pollIntervalExpiry i) s = .next t ∧ read ∈ t.engine.jobs ∧ SlotFrame i s t ∧
      { t with engine := s.engine } =
        s.setSlot i { c with pollDue := false, timers := { c.timers with poll := some 5 } }) ∧
    (¬ (c.state = .cooldown ∧ c.timers.cooldown.isSome) → exec (.cooldownExpiry i) s = .next s) ∧
    (¬ (c.state = .consentWait ∧ c.timers.consent.isSome) → exec (.consentTimeout i) s = .next s) ∧
    (¬ (c.state = .powering ∧ c.timers.ramp.isSome) → exec (.rampTimerExpiry i) s = .next s) ∧
    (¬ (c.state = .readyWait ∧ c.timers.ready.isSome) → exec (.readyTimeout i) s = .next s) ∧
    (¬ (c.state = .resetHold ∧ c.timers.resetHold.isSome) → exec (.resetHoldExpiry i) s = .next s) ∧
    (¬ (c.state = .readyWait ∧ c.timers.poll.isSome) → exec (.pollIntervalExpiry i) s = .next s)

/-! ### Monitor frames -/

/-- SLOT_FRAME_TAKEN: in POWERING the frame counts the over-current run against the inrush limit and the PG-good run, in
the six powered states after it the over-current run against the overload threshold and the PG-lost run; a run that
reaches the filter length is an INRUSH or OVERLOAD fault with its trigger, else the ramp's success with the overload
threshold of the card's power, or a PG_LOST fault with its trigger; a code above the threshold sets the slot's pattern bit.
Completions already sent to the slot are taken before a fault of the six states, which leaves u: a slot that they have taken
out of those states discards the frame (02 R45, log 37). In every other state the frame is discarded (05 R83, R84, R88,
R96, R97, R99, 09 R168). -/
def Obligations.SlotFrameRunsChecks : Prop :=
  ∀ (s : State) (i : SlotId) (f : MonitorFrame) (rest : List MonitorFrame), s.inReset = false →
    (s.slot i).inbox.frames = f :: rest →
    let taken (x : State) : Slot := { x.slot i with inbox := { (x.slot i).inbox with frames := rest } }
    let c := taken s
    let noted (above : Bool) (r : Recorder) : Recorder :=
      if above then { r with pattern := r.pattern ||| BitVec.twoPow 12 i.val } else r
    let powering := decide (s.monitor.inrush < f.sample.currents[i].toNat)
    let runOver := if powering then c.overCurrentRun + 1 else 0
    let good := if f.sample.pg.getLsbD i.val then c.pgGoodRun + 1 else 0
    let ramped : State := { s.setSlot i { c with overCurrentRun := runOver, pgGoodRun := good } with
      recorder := noted powering s.recorder }
    let trigger (source : TriggerSource) (u : State) : State := { u with recorder := { u.recorder with
      triggers := u.recorder.triggers ++ [{ source := source, slot := some i }] } }
    let checked (st : SlotState) : Prop := st ∈ [.resetHold, .readyWait, .configuring, .roomWait, .joining, .running]
    let answers (p : State → Prop) : Prop :=
      ∃ t, exec (.slotFrameTaken i) s = .next (transmit t) ∧ t.link.replies = s.link.replies ∧ p t
    (c.state = .powering →
      (runOver < s.monitor.filter → good < s.monitor.filter → exec (.slotFrameTaken i) s = .next ramped) ∧
      (s.monitor.filter ≤ runOver → answers fun t => Faults i .inrush 1 (trigger .slotOvercurrent ramped) t) ∧
      (runOver < s.monitor.filter → s.monitor.filter ≤ good → i ∉ s.arbiter.queue.map PowerEntry.slot →
        answers fun t => Entered i .resetHold .none 1 ramped t ∧ SlotFrame i ramped t ∧
          Keeps i s t ∧ (t.slot i).timers.resetHold = some s.times.resetHold ∧ (t.slot i).overCurrentRun = 0 ∧
          (t.slot i).pgLostRun = 0 ∧ (t.slot i).grant = c.grant ∧ (t.slot i).threshold =
            some (min 4095 (((((c.power * 25 + 5) / 6) * s.monitor.margin + 99) / 100 + 4) / 5)) ∧
          t.arbiter.blocked ∧
          (s.arbiter.queue = [] → t.arbiter = { s.arbiter with ramping := s.arbiter.ramping - 1 }))) ∧
    (∀ th, checked c.state → c.threshold = some th →
      let above := decide (th < f.sample.currents[i].toNat)
      let run := if above then c.overCurrentRun + 1 else 0
      let lost := if f.sample.pg.getLsbD i.val then 0 else c.pgLostRun + 1
      let held (x : State) : State := { x.setSlot i { taken x with overCurrentRun := run, pgLostRun := lost } with
        recorder := noted above x.recorder }
      let faults (code : Reason) (source : TriggerSource) : Prop :=
        ∃ u, s.caughtUp i u ∧ (c.inbox.completions = [] → u = s) ∧
          (checked (u.slot i).state → answers fun t => Faults i code 1 (trigger source (held u)) t) ∧
          (¬ checked (u.slot i).state → exec (.slotFrameTaken i) s = .next (u.setSlot i (taken u)))
      (run < s.monitor.filter → lost < s.monitor.filter → exec (.slotFrameTaken i) s = .next (held s)) ∧
      (s.monitor.filter ≤ run → faults .overload .slotOvercurrent) ∧
      (run < s.monitor.filter → s.monitor.filter ≤ lost → faults .pgLost .slotPowerLost)) ∧
    (c.state ∉ [.powering, .resetHold, .readyWait, .configuring, .roomWait, .joining, .running] →
      exec (.slotFrameTaken i) s = .next (s.setSlot i c))

/-- MONITOR_FRAME hands the frame, tagged with the time-stamp counter, to the twelve slots and the recorder; one whose rail
code is below the dip threshold presents RAIL_DIP once, and no slot's runs, the arbiter or the notice queue are touched
(05 R83, R100; that the tag is the counter's value after its advance is log 6). -/
def Obligations.MonitorFramePresentsRailDip : Prop :=
  ∀ (s : State) (f : MonitorSample), s.inReset = false →
    ∃ t, exec (.monitorFrame f) s = .next t ∧
      let frame : MonitorFrame := { time := t.monitor.timeStamp, sample := f }
      t.recorder = { s.recorder with
        frames := s.recorder.frames ++ [frame]
        triggers := s.recorder.triggers ++
          if f.rail.toNat < s.monitor.railDip then [{ source := .railDip, slot := none }] else [] } ∧
      (∀ i, t.slot i = { s.slot i with inbox := { (s.slot i).inbox with
        frames := (s.slot i).inbox.frames ++ [frame] } }) ∧
      { t with slots := s.slots, recorder := s.recorder, monitor := s.monitor } = s ∧
      { t.monitor with timeStamp := s.monitor.timeStamp } = s.monitor

/-! ### The setup bus engine -/

/-- A byte boundary moves the job in progress on: the index of its next byte and the bytes received. Its transaction's end:
under an abort request ABORTED, with the bytes transferred, whatever the byte's own result; else DONE with what was read or
written, GRANTED or DENIED, ACCEPTED or REJECTED by the answer byte, CARD_NAK for a refused byte or any other answer,
BUS_TIMEOUT for a byte not completed in time, each with the byte's index; the completion goes to the slot, the pair is
released and the next job is taken. What has passed on the pair is then a start condition, the bytes, most significant bit
first, each with its acknowledge bit, low but for the refused byte, and a stop condition; a block's words are read from its
set, until an abort request, which keeps the bytes as it finds them. An end that is none of the transaction's, or that comes
while the job is held, changes nothing (log 4). The lines of a pair that no transaction is open on are high. SETTLE_EXPIRY
opens a held job (02 R31 to R39, R41, R42, R44, R46; the operands' counts, and what passes of a byte that is not completed,
are log 17, the whole stop after it is the model's choice, log 39, the bytes that an abort request keeps are log 38). -/
def Obligations.EngineEndsJobs : Prop :=
  ∀ (s : State) (cur : CurrentJob), s.inReset = false → s.engine.current = some cur →
    let read : List Byte := match cur.job.transaction with
      | .identRead offset count => 0x41 :: (u8 offset ++ u8 count)
      | .statusRead => [0x42]
      | .unlock k key => 0x43 :: (u8 k.val ++ key)
      | .blockWrite set offset count => 0x44 :: (u16 offset ++ u8 count ++ (List.range count).flatMap fun j =>
          u16 ((s.sets[set].words.getD (offset + j) 0).toNat))
      | .commit total => 0x45 :: u16 total
    let sent : List Byte := if cur.abort then cur.cutBytes else read
    let left (n : Nat) (data : List Byte) : Prop :=
      cur.nextByte + n < cur.job.transaction.sentLength + cur.job.transaction.answerLength ∧
        cur.received.length + data.length = cur.nextByte + n - cur.job.transaction.sentLength
    let answered (data : List Byte) : Prop := cur.received.length + data.length = cur.job.transaction.answerLength
    let byte (refused : Bool) (b : Byte) : List BusSymbol :=
      [.bit (b.getLsbD 7), .bit (b.getLsbD 6), .bit (b.getLsbD 5), .bit (b.getLsbD 4), .bit (b.getLsbD 3),
       .bit (b.getLsbD 2), .bit (b.getLsbD 1), .bit (b.getLsbD 0), .bit refused]
    let passes (command : Instr) (bytes : List BusSymbol) : Prop :=
      ∃ t, exec command s = .next t ∧
        t.engine.ended = some { slot := cur.job.slot, symbols := .start :: bytes ++ [.stop] }
    let ends (command : Instr) (outcome : JobOutcome) (data : List Byte) (words : Nat) (index : Option Nat) : Prop :=
      ∃ t, exec command s = .next t ∧ JobEnds cur outcome data words index s t
    let done (data : List Byte) (outcome : JobOutcome) (returned : List Byte) (words : Nat) (index : Option Nat) : Prop :=
      ends (.jobComplete (.finished data)) outcome returned words index
    (cur.held = false → cur.abort = true →
      (∀ data, answered data → ends (.jobComplete (.finished data)) .aborted [] 0
        (some (cur.job.transaction.sentLength + cur.received.length + data.length))) ∧
      (∀ n, cur.nextByte + n < cur.job.transaction.sentLength →
        ends (.jobComplete (.nak n)) .aborted [] 0 (some (cur.nextByte + n))) ∧
      ∀ n data, left n data → ends (.jobComplete (.boundary n data)) .aborted [] 0 (some (cur.nextByte + n)) ∧
        ends (.busTimeout ⟨n, data⟩) .aborted [] 0 (some (cur.nextByte + n))) ∧
    (cur.held = false → cur.abort = false →
      (∀ n, cur.nextByte + n < cur.job.transaction.sentLength →
        ends (.jobComplete (.nak n)) .cardNak [] 0 (some (cur.nextByte + n))) ∧
      (∀ n data, left n data → ends (.busTimeout ⟨n, data⟩) .busTimeout [] 0 (some (cur.nextByte + n)) ∧
        exec (.jobComplete (.boundary n data)) s = .next { s with engine := { s.engine with
          current := some { cur with nextByte := cur.nextByte + n, received := cur.received ++ data } } }) ∧
      ∀ data,
        let whole := cur.received ++ data
        (∀ offset count, cur.job.transaction = .identRead offset count → whole.length = count →
          done data .done whole 0 none) ∧
        (∀ status, cur.job.transaction = .statusRead → whole = [status] → done data .done [status] 0 none) ∧
        (∀ set offset count, cur.job.transaction = .blockWrite set offset count → whole = [] →
          done data .done [] count none) ∧
        (∀ k key b, cur.job.transaction = .unlock k key → whole = [b] →
          if b = 0x3C then done data .granted [] 0 none else if b = 0xC3 then done data .denied [] 0 none
          else done data .cardNak [] 0 (some 18)) ∧
        ∀ total b, cur.job.transaction = .commit total → whole = [b] →
          if b = 0x5A then done data .accepted [] 0 none else if b = 0xA5 then done data .rejected [] 0 none
          else done data .cardNak [] 0 (some 3)) ∧
    (∀ n data,
      (cur.held = true ∨ ¬ left n data → exec (.busTimeout ⟨n, data⟩) s = .next s ∧
        exec (.jobComplete (.boundary n data)) s = .next s) ∧
      (cur.held = true ∨ ¬ answered data → exec (.jobComplete (.finished data)) s = .next s) ∧
      (cur.held = true ∨ cur.job.transaction.sentLength ≤ cur.nextByte + n →
        exec (.jobComplete (.nak n)) s = .next s)) ∧
    (cur.held = false →
      (∀ n b, cur.nextByte + n < cur.job.transaction.sentLength → sent[cur.nextByte + n]? = some b →
        passes (.jobComplete (.nak n))
          ((sent.take (cur.nextByte + n) ++ cur.received).flatMap (byte false) ++ byte true b)) ∧
      (∀ n data, left n data →
        passes (.busTimeout ⟨n, data⟩) ((sent.take (cur.nextByte + n) ++ cur.received ++ data).flatMap (byte false)) ∧
        (cur.abort = true → passes (.jobComplete (.boundary n data))
          ((sent.take (cur.nextByte + n) ++ cur.received ++ data).flatMap (byte false)))) ∧
      ∀ data,
        let whole := cur.received ++ data
        answered data →
          (∀ b, whole = [b] → (∃ k key, cur.job.transaction = .unlock k key ∧ b ∉ [0x3C, 0xC3]) ∨
              (∃ total, cur.job.transaction = .commit total ∧ b ∉ [0x5A, 0xA5]) →
            passes (.jobComplete (.finished data)) (sent.flatMap (byte false) ++ byte true b)) ∧
          ((∀ k key, cur.job.transaction = .unlock k key → whole = [0x3C] ∨ whole = [0xC3]) →
            (∀ total, cur.job.transaction = .commit total → whole = [0x5A] ∨ whole = [0xA5]) →
            passes (.jobComplete (.finished data)) ((sent ++ whole).flatMap (byte false)))) ∧
    (cur.requestAbort s.sets = if cur.abort then cur else { cur with abort := true, cutBytes := read }) ∧
    ∀ i : SlotId,
      (i ≠ cur.job.slot ∨ cur.held = true → s.pairLevels i = (true, true)) ∧
      ((s.slot i).standby = .settling → ∃ t, exec (.settleExpiry i) s = .next t ∧
        t.slots = s.slots.set i { s.slot i with standby := .settled } ∧
        { t with slots := s.slots, engine := s.engine } = s ∧
        t.engine = { s.engine with
          current := some (if cur.job.slot = i then { cur with held := false } else cur) }) ∧
      ((s.slot i).standby ≠ .settling → exec (.settleExpiry i) s = .next s)

/-! ### What a slot makes of completions -/

/-- JOB_COMPLETION_TAKEN in IDENTIFYING: a header with another tag than D7h or a length outside 32 to 64 refuses the card
with BAD_IDENTITY, a good one is kept and the rest read; a whole record that fails a check of 03 R51 is BAD_IDENTITY, a
valid one is screened, the first question of R63 that applies giving state and reason, and R64 what the slot record keeps;
a bus failure is a SETUP_BUS fault, an ABORTED completion discarded. In a state that issues no job every completion is
discarded (01 R14, 02 R47, 03 R50 to R52, R56, R63 to R65). -/
def Obligations.IdentityReadAndScreened : Prop :=
  ∀ (s : State) (i : SlotId) (a : Completion) (rest : List Completion), s.inReset = false →
    (s.slot i).inbox.completions = a :: rest →
    let c : Slot := { s.slot i with inbox := { (s.slot i).inbox with completions := rest } }
    let u := s.setSlot i c
    let answers (p : State → Prop) : Prop :=
      ∃ t, exec (.jobCompletionTaken i) s = .next (transmit t) ∧ t.link.replies = s.link.replies ∧ p t
    let refuses (reason : Reason) (results : Screening) : Prop := answers fun t =>
      Entered i .refused reason 1 u t ∧ Local i s t ∧ (t.slot i).screening = results ∧
        (t.slot i).faultCount = c.faultCount ∧ (t.slot i).allowance = c.allowance
    let len := (a.data.getD 1 0).toNat
    let headed := a.data.getD 0 0 = 0xD7 ∧ 32 ≤ len ∧ len ≤ 64
    let r := c.readBuffer ++ a.data
    let valid := (r.map BitVec.toNat).sum % 256 = 0 ∧ (r.getD 11 0).toNat / 16 < 3 ∧ (r.getD 11 0).toNat % 16 < 3 ∧
      fieldAt r 14 2 ≤ 256 ∧ fieldAt r 16 2 ≤ 256 ∧ 0 < fieldAt r 12 2 ∧ fieldAt r 12 2 ≤ 2500 ∧
      (fieldAt r 28 2 = 0 ∨ 0 < (r.getD 30 0).toNat ∧ (r.getD 30 0).toNat ≤ 32)
    let read (matched : Option (Fin 16)) : Screening := { Screening.absent with identity := some r, matched := matched }
    (c.state = .identifying → a.kind = .identRead →
      (a.outcome = .done → c.readBuffer = [] → ¬ headed → refuses .badIdentity c.screening) ∧
      (a.outcome = .done → c.readBuffer = [] → headed → answers fun t =>
        { t with engine := s.engine } = s.setSlot i { c with readBuffer := a.data } ∧ SlotFrame i s t ∧
          { slot := i, transaction := .identRead 8 (len - 8) } ∈ t.engine.jobs) ∧
      (a.outcome = .done → c.readBuffer ≠ [] → ¬ valid → refuses .badIdentity c.screening) ∧
      (a.outcome = .done → c.readBuffer ≠ [] → valid →
        (∀ reason matched, s.policy.verdict (identCode r) = .refuse reason matched → refuses reason (read matched)) ∧
        ∀ action matched rank set, s.policy.verdict (identCode r) = .accept action matched rank set →
          let judged : Screening := { read matched with rank := some rank, paramSet := set }
          (windowOf r = none → refuses .timingRange judged) ∧
          ∀ d flags, windowOf r = some (d, flags) →
            let full : Screening := { judged with window := some d, clamps := flags }
            let w := s.setSlot i { c with screening := full }
            (usableSpan s.planner.settings < d.length → refuses .windowTooLong full) ∧
            (d.length ≤ usableSpan s.planner.settings →
              (s.arbiter.budget < fieldAt r 12 2 → refuses .powerRange full) ∧
              (fieldAt r 12 2 ≤ s.arbiter.budget →
                (action = .consent → answers fun t => Entered i .consentWait .none 1 u t ∧ Local i s t ∧
                  (t.slot i).timers.consent = some s.times.consentTimeout ∧ Keeps i w t) ∧
                (action = .allow → identLocked r = true → answers fun t => Entered i .unlocking .none 1 u t ∧
                  SlotFrame i s t ∧ Local i s { t with engine := s.engine } ∧ (t.slot i).walkPos = 0 ∧
                  (t.slot i).offers = 0 ∧ { slot := i, transaction := .statusRead } ∈ t.engine.jobs ∧ Keeps i w t) ∧
                (action = .allow → identLocked r = false → answers fun t => JoinsPower i w t)))) ∧
      (a.outcome = .cardNak ∨ a.outcome = .busTimeout → answers fun t => Faults i .setupBus 1 u t) ∧
      (a.outcome = .aborted → exec (.jobCompletionTaken i) s = .next (transmit u))) ∧
    (c.state ∉ [.identifying, .unlocking, .readyWait, .configuring] → exec (.jobCompletionTaken i) s = .next (transmit u))

/-- JOB_COMPLETION_TAKEN in UNLOCKING: a status read without the locked bit and a GRANTED key move the slot to POWER_WAIT;
with the locked bit, and after a DENIED that leaves allowance, the walk offers the next loaded key of the card's mask, or
ends in REFUSED with NO_KEY when nothing was offered, else KEY_DENIED; a DENIED charges 1 and at 0 bars the slot with
ALLOWANCE_SPENT; a bus failure is a SETUP_BUS fault that charges nothing (04 R73 to R78, R81; the walk position held as k + 1
after an offer of key slot k, and as it stands at the walk's end, is the model's choice, log 35). -/
def Obligations.UnlockWalkOffersAndCharges : Prop :=
  ∀ (s : State) (i : SlotId) (a : Completion) (rest : List Completion), s.inReset = false →
    (s.slot i).inbox.completions = a :: rest → (s.slot i).state = .unlocking →
    let c : Slot := { s.slot i with inbox := { (s.slot i).inbox with completions := rest } }
    let u := s.setSlot i c
    let answers (p : State → Prop) : Prop :=
      ∃ t, exec (.jobCompletionTaken i) s = .next (transmit t) ∧ t.link.replies = s.link.replies ∧ p t
    let offered (k : Fin 4) : Prop := c.walkPos ≤ k.val ∧ s.keys[k].loaded = true ∧
      ∃ r, c.screening.identity = some r ∧ (r.getD 10 0).getLsbD k.val = true
    let walks (allowance : Nat) : Prop :=
      (∀ k, offered k → (∀ l, l < k → ¬ offered l) → answers fun t =>
        { t with engine := s.engine } = s.setSlot i
          { c with allowance := allowance, walkPos := k.val + 1, offers := c.offers + 1 } ∧ SlotFrame i s t ∧
        { slot := i, transaction := .unlock k s.keys[k].key } ∈ t.engine.jobs) ∧
      ((∀ k, ¬ offered k) → answers fun t =>
        Entered i .refused (if c.offers = 0 then .noKey else .keyDenied) 1 u t ∧ Local i s t ∧
          (t.slot i).allowance = allowance ∧ (t.slot i).faultCount = c.faultCount ∧
          (t.slot i).screening = c.screening)
    (a.kind = .statusRead → a.outcome = .done → (a.data.getD 0 0).getLsbD 1 = false →
      answers fun t => JoinsPower i u t) ∧
    (a.kind = .statusRead → a.outcome = .done → (a.data.getD 0 0).getLsbD 1 = true → walks c.allowance) ∧
    (a.kind = .unlock → a.outcome = .granted → answers fun t => JoinsPower i u t) ∧
    (a.kind = .unlock → a.outcome = .denied → 1 < c.allowance → walks (c.allowance - 1)) ∧
    (a.kind = .unlock → a.outcome = .denied → c.allowance ≤ 1 → answers fun t =>
      Entered i .barred .allowanceSpent 1 u t ∧ PoweredDown i s t ∧ SlotFrame i s t ∧ (t.slot i).allowance = 0 ∧
        (t.slot i).screening = c.screening ∧ (t.slot i).faultCount = c.faultCount) ∧
    (a.kind = .statusRead ∨ a.kind = .unlock → a.outcome = .cardNak ∨ a.outcome = .busTimeout →
      answers fun t => Faults i .setupBus 1 u t) ∧
    (a.outcome = .aborted → exec (.jobCompletionTaken i) s = .next (transmit u))

/-- The ready wait's end and the wait for a set: a status read with the ready bit inserts a slot without a set, and takes
one with a set to CONFIGURING, where a set that is not READY is waited for with PARAMS_WAIT, one longer than the card's
area is CONFIG_TOO_LARGE, and any other is pinned and its transfer started; SET_READY_ANNOUNCEMENT makes the same
examination for a slot waiting for that set and is discarded by every other (05 R102, R103, 06 R112 to R114; a poll
withdrawn at the end is log 34). -/
def Obligations.ReadyCardIsConfiguredOrInserted : Prop :=
  ∀ (s : State) (i : SlotId), s.inReset = false →
    (∀ (a : Completion) (rest : List Completion), (s.slot i).inbox.completions = a :: rest →
      (s.slot i).state = .readyWait → a.kind = .statusRead →
      let c : Slot := { s.slot i with inbox := { (s.slot i).inbox with completions := rest } }
      let u := s.setSlot i c
      let answers (p : State → Prop) : Prop :=
        ∃ t, exec (.jobCompletionTaken i) s = .next (transmit t) ∧ t.link.replies = s.link.replies ∧ p t
      let seen := a.outcome = .done ∧ (a.data.getD 0 0).getLsbD 0 = true
      (seen → c.screening.paramSet = none → answers fun t => Inserts i u t) ∧
      (∀ n, seen → c.screening.paramSet = some n → s.sets[n].state ≠ .ready → answers fun t =>
        Entered i .configuring .paramsWait 1 u t ∧ SlotFrame i s t ∧ Keeps i s t ∧ (t.slot i).pin = c.pin) ∧
      (∀ n, seen → c.screening.paramSet = some n → s.sets[n].state = .ready → c.configArea < s.sets[n].length →
        answers fun t => Faults i .configTooLarge 2 u t) ∧
      (∀ n, seen → c.screening.paramSet = some n → s.sets[n].state = .ready → s.sets[n].length ≤ c.configArea →
        1 ≤ s.sets[n].length →
        answers fun t => StartsTransfer i n u t ∧ Entered i .configuring .none 1 u t) ∧
      (¬ seen → a.outcome ∈ [.done, .cardNak, .busTimeout] → c.pollDue = true → s.engine.hasJob i = false →
        answers fun t => { slot := i, transaction := .statusRead } ∈ t.engine.jobs ∧ SlotFrame i s t ∧
          { t with engine := s.engine } =
            s.setSlot i { c with pollDue := false, timers := { c.timers with poll := some 5 } }) ∧
      (¬ seen → c.pollDue = false → exec (.jobCompletionTaken i) s = .next (transmit u))) ∧
    ∀ (n : Fin 8) (rest : List (Fin 8)), (s.slot i).inbox.announcements = n :: rest →
      let c : Slot := { s.slot i with inbox := { (s.slot i).inbox with announcements := rest } }
      let u := s.setSlot i c
      let waiting := c.state = .configuring ∧ c.pin = none ∧ c.screening.paramSet = some n ∧ s.sets[n].state = .ready
      (waiting → c.configArea < s.sets[n].length → ∃ t, exec (.setReadyAnnouncement i) s = .next (transmit t) ∧
        Faults i .configTooLarge 1 u t ∧ t.link.replies = s.link.replies) ∧
      (waiting → s.sets[n].length ≤ c.configArea → 1 ≤ s.sets[n].length → c.reason = .paramsWait →
        ∃ t, exec (.setReadyAnnouncement i) s = .next (transmit t) ∧ StartsTransfer i n u t ∧ t.posted i ∧
          (t.slot i).transitions = c.transitions ∧ t.link.replies = s.link.replies) ∧
      (¬ waiting → exec (.setReadyAnnouncement i) s = .next u)

/-- JOB_COMPLETION_TAKEN in a transfer from a pinned set: a written block raises the transfer count and issues the next
block, or the COMMIT once every word is written; ACCEPTED records every word written, releases the pin and inserts the
slot's window; REJECTED and a failed COMMIT record the same and are CONFIG_REJECTED and CONFIG_WRITE faults; a failed
block is a CONFIG_WRITE fault that records the blocks completed; an ABORTED completion is discarded (06 R108, R114 to
R118). -/
def Obligations.TransferWritesBlocksAndCommits : Prop :=
  ∀ (s : State) (i : SlotId) (n : Fin 8) (a : Completion) (rest : List Completion), s.inReset = false →
    (s.slot i).inbox.completions = a :: rest → (s.slot i).state = .configuring → (s.slot i).pin = some n →
    let c : Slot := { s.slot i with inbox := { (s.slot i).inbox with completions := rest } }
    let u := s.setSlot i c
    let length := s.sets[n].length
    let count := c.transferCount + a.words
    let answers (p : State → Prop) : Prop :=
      ∃ t, exec (.jobCompletionTaken i) s = .next (transmit t) ∧ t.link.replies = s.link.replies ∧ p t
    let issues (job : Transaction) : Prop := answers fun t =>
      { t with engine := s.engine } = s.setSlot i { c with transferCount := count } ∧ SlotFrame i s t ∧
        { slot := i, transaction := job } ∈ t.engine.jobs
    let unpinned : ParamSet := { s.sets[n] with pins := s.sets[n].pins - 1 }
    let ended : State := { s.setSlot i { c with wordsWritten := length, residual := 0, pin := none } with
      sets := s.sets.set n unpinned }
    (a.kind = .blockWrite → a.outcome = .done →
      (count < length → issues (.blockWrite n count (min c.configBlock (length - count)))) ∧
      (length ≤ count → issues (.commit length))) ∧
    (a.kind = .commit →
      (a.outcome = .accepted → answers fun t => Inserts i ended t ∧ t.sets[n] = unpinned ∧ (t.slot i).pin = none ∧
        (t.slot i).wordsWritten = length ∧ (t.slot i).residual = 0) ∧
      (a.outcome = .rejected → answers fun t => Faults i .configRejected 1 ended t) ∧
      (a.outcome = .cardNak ∨ a.outcome = .busTimeout → answers fun t => Faults i .configWrite 1 ended t)) ∧
    (a.kind = .blockWrite → a.outcome = .cardNak ∨ a.outcome = .busTimeout → answers fun t =>
      Faults i .configWrite 1 u t ∧ (t.slot i).wordsWritten = c.transferCount ∧
        (t.slot i).residual = length - c.transferCount) ∧
    (a.outcome = .aborted → exec (.jobCompletionTaken i) s = .next (transmit u))

/-! ### The cycle -/

/-- ADOPTION_REPORT_TAKEN in JOINING enters RUNNING with reason NONE, the overrun count 0 and a notice; in any other state
the report is discarded (08 R147). -/
def Obligations.AdoptionReportEntersRunning : Prop :=
  ∀ (s : State) (i : SlotId) (k : Nat), s.inReset = false → (s.slot i).inbox.adoptionReports = k + 1 →
    let c : Slot := { s.slot i with inbox := { (s.slot i).inbox with adoptionReports := k } }
    ((s.slot i).state = .joining → ∃ t, exec (.adoptionReportTaken i) s = .next (transmit t) ∧ Entered i .running .none 1 s t ∧
      Local i s t ∧ Keeps i s t ∧ (t.slot i).overruns = 0 ∧ (t.slot i).grant = c.grant ∧
      t.link.replies = s.link.replies) ∧
    ((s.slot i).state ≠ .joining → exec (.adoptionReportTaken i) s = .next (s.setSlot i c))

/-- WINDOW_OUTCOME_TAKEN in RUNNING: a clean outcome clears the overrun count, an overrun raises it, and the third in a row
is a WINDOW_OVERRUN fault that keeps the count; in any other state it is discarded. WINDOW_GAP_START ends the window being
run, deasserts SEL and sends the outcome to its slot (08 R154, R156). -/
def Obligations.WindowOutcomesCounted : Prop :=
  ∀ (s : State) (i : SlotId), s.inReset = false →
    (∀ o rest, (s.slot i).inbox.outcomes = o :: rest →
      let c : Slot := { s.slot i with inbox := { (s.slot i).inbox with outcomes := rest } }
      let run := (s.slot i).state = .running
      (run → o = .clean → exec (.windowOutcomeTaken i) s = .next (s.setSlot i { c with overruns := 0 })) ∧
      (run → o = .overrun → c.overruns < 2 →
        exec (.windowOutcomeTaken i) s = .next (s.setSlot i { c with overruns := c.overruns + 1 })) ∧
      (run → o = .overrun → 2 ≤ c.overruns → ∃ t, exec (.windowOutcomeTaken i) s = .next (transmit t) ∧
        Faults i .windowOverrun 1 s t ∧ (t.slot i).overruns = c.overruns + 1 ∧ t.link.replies = s.link.replies) ∧
      (¬ run → exec (.windowOutcomeTaken i) s = .next (s.setSlot i c))) ∧
    ∀ r, s.sequencer.run = some r →
      ∃ t, exec .windowGapStart s = .next t ∧ t.sel r.slot = false ∧ t.strobe = false ∧ t.dirIn = false ∧
        t.slots = s.slots.set r.slot { s.slot r.slot with inbox := { (s.slot r.slot).inbox with
          outcomes := (s.slot r.slot).inbox.outcomes ++ [if r.overrun then .overrun else .clean] } } ∧
        { t with slots := s.slots, sequencer := s.sequencer } = s ∧
        t.sequencer = { s.sequencer with run := none }

/-- In MASTER mode MARK_BEGIN of a cycle under way drives MARK low, and CYCLE_START at that mark's end starts a cycle
without a notice: count, settings in force, adoption (08 R146, R149, R159). Out of place both change nothing (log 26). -/
def Obligations.MasterMarksStartCycles : Prop :=
  ∀ s : State, s.inReset = false →
    (s.sequencer.state = .running → s.sequencer.next.isSome →
      exec .markBegin s = .next { s with sequencer := { s.sequencer with markLow := true } }) ∧
    (s.sequencer.state = .running → s.sequencer.markLow = true → ∃ t, exec .cycleStart s = .next t ∧
      StartsCycle .running s.sequencer.earlyCount s t ∧ t.link = s.link) ∧
    (s.sequencer.state ≠ .running ∨ s.sequencer.next = none → exec .markBegin s = .next s) ∧
    (s.sequencer.state ≠ .running ∨ s.sequencer.markLow = false → exec .cycleStart s = .next s)

/-- FOLLOWER mode: a pulse of 1 to 4 ticks is ignored; one of 5 to 39 ticks, and one that reaches 61, is ILLEGAL: counted,
and SUSPENDED out of LOCKED with the window in progress cut; a valid mark starts a cycle, with a notice out of SEEKING and
SUSPENDED into LOCKED, counted EARLY when it ends before C - tolerance; LOST_TIMEOUT counts a LOST and suspends. The end
of a pulse already taken at 61 ticks is ignored. Outside FOLLOWER mode MARK is not watched (08 R138, R150 to R153, R159;
a mark of LOCKED later than C + tolerance, which LOST_TIMEOUT forestalls, is log 27). -/
def Obligations.FollowerJudgesMarks : Prop :=
  ∀ (s : State) (width sinceStart : Nat), s.inReset = false →
    let q := s.sequencer
    let follows := q.state = .seeking ∨ q.state = .locked ∨ q.state = .suspended
    let fresh := follows ∧ q.longPulse = false
    let illegal (p : Sequencer) (t : State) : Prop := t.postedCycle .illegal ∧
      { t with sequencer := s.sequencer, link := s.link } = s ∧ { t.link with notices := s.link.notices } = s.link ∧
      t.sequencer = { p with
        illegalCount := if q.illegalCount < 65535 then q.illegalCount + 1 else q.illegalCount
        state := if q.state = .locked then .suspended else q.state
        next := if q.state = .locked then none else q.next
        run := if q.state = .locked then none else q.run }
    (¬ follows → exec (.markPulseEnd width sinceStart) s = .next s ∧ exec .markLongPulse s = .next s) ∧
    (follows → q.longPulse = true → exec .markLongPulse s = .next s ∧
      exec (.markPulseEnd width sinceStart) s = .next { s with sequencer := { q with longPulse := false } }) ∧
    (fresh → width < 5 → exec (.markPulseEnd width sinceStart) s = .next s) ∧
    (fresh → 5 ≤ width → width < 40 → ∃ t, exec (.markPulseEnd width sinceStart) s = .next (transmit t) ∧ illegal q t) ∧
    (fresh → ∃ t, exec .markLongPulse s = .next (transmit t) ∧ illegal { q with longPulse := true } t) ∧
    (fresh → 40 ≤ width → width ≤ 60 →
      (q.state ≠ .locked → ∃ t, exec (.markPulseEnd width sinceStart) s = .next (transmit t) ∧
        StartsCycle .locked q.earlyCount s t ∧ t.postedCycle .stateChange) ∧
      (q.state = .locked → sinceStart + q.tolerance < q.length → ∃ t,
        exec (.markPulseEnd width sinceStart) s = .next (transmit t) ∧
        StartsCycle .locked (if q.earlyCount < 65535 then q.earlyCount + 1 else q.earlyCount) s t ∧
        t.postedCycle .early) ∧
      (q.state = .locked → q.length ≤ sinceStart + q.tolerance → sinceStart ≤ q.length + q.tolerance → ∃ t,
        exec (.markPulseEnd width sinceStart) s = .next t ∧ StartsCycle .locked q.earlyCount s t ∧
        t.link = s.link)) ∧
    (q.state = .locked → ∃ t, exec .lostTimeout s = .next (transmit t) ∧ t.postedCycle .lost ∧
      { t with sequencer := s.sequencer, link := s.link } = s ∧ { t.link with notices := s.link.notices } = s.link ∧
      t.sequencer = { q with
        state := .suspended, next := none, run := none
        lostCount := if q.lostCount < 65535 then q.lostCount + 1 else q.lostCount }) ∧
    (q.state ≠ .locked → exec .lostTimeout s = .next s)

/-- WINDOW_START takes the next window of the cycle: SEL is asserted for an unmuted window of a RUNNING slot in RUNNING or
LOCKED, else its time passes with no card selected. ACCESS_PART_END and STROBE_TICK_END run the accesses: setup, strobe,
hold, the next access, the in phase after the out phase, DIR and STROBE with them; a card that uses RDY lengthens the
strobe tick by tick within its allowance, and a stretch past it cuts the access and marks an overrun (08 R154, R155). -/
def Obligations.WindowRunsAccesses : Prop :=
  ∀ s : State, s.inReset = false →
    let ran (command : Instr) (r : WindowRun) : Prop :=
      exec command s = .next { s with sequencer := { s.sequencer with run := some r } }
    (∀ k w, s.sequencer.next = some k → s.sequencer.run = none → s.sequencer.active[k]? = some w →
      let runs := w.muted = false ∧ (s.slot w.slot).state = .running ∧
        (s.sequencer.state = .running ∨ s.sequencer.state = .locked)
      (¬ runs → exec .windowStart s = .next { s with sequencer := { s.sequencer with next := some (k + 1) } }) ∧
      (runs → ∃ t r, exec .windowStart s = .next t ∧ t.sel w.slot = true ∧
        t = { s with sequencer := { s.sequencer with next := some (k + 1), run := some r } } ∧
        r.slot = w.slot ∧ r.window = w.window ∧ r.index = 0 ∧ r.stretch = 0 ∧ r.overrun = false ∧ r.elapsed = 0 ∧
        r.inPhase = decide (w.window.outTransfers = 0 ∧ 0 < w.window.inTransfers) ∧
        r.part = if w.window.outTransfers = 0 ∧ w.window.inTransfers = 0 then .tail
          else if w.window.setupQ = 0 then .strobe else .setup)) ∧
    ∀ r, s.sequencer.run = some r →
      let d := r.window
      let begun (x : WindowRun) : WindowRun :=
        if x.index % d.burst = 0 ∧ d.setupQ ≠ 0 then { x with part := .setup }
        else { x with part := .strobe, strobeTicks := d.strobeQ }
      let following (x : WindowRun) : WindowRun :=
        if x.index + 1 < (if x.inPhase then d.inTransfers else d.outTransfers) then
          begun { x with index := x.index + 1 }
        else if x.inPhase = false ∧ 0 < d.inTransfers then begun { x with inPhase := true, index := 0 }
        else { x with index := x.index + 1, part := .tail }
      let hold := if r.index % d.burst = 0 then d.fullAccess - d.setupQ - d.strobeQ else d.shortAccess - d.strobeQ
      let struck : WindowRun := { r with elapsed := r.elapsed + r.strobeTicks }
      let afterStrobe := if hold = 0 then following struck else { struck with part := .hold }
      (r.part = .setup → ran .accessPartEnd
        { r with part := .strobe, strobeTicks := d.strobeQ, elapsed := r.elapsed + d.setupQ }) ∧
      (r.part = .strobe → d.stretch = 0 → ran .accessPartEnd afterStrobe) ∧
      (r.part = .hold → ran .accessPartEnd (following { r with elapsed := r.elapsed + hold })) ∧
      (r.part = .tail → exec .accessPartEnd s = .next s) ∧
      (r.part = .strobe → 0 < d.stretch → ran (.strobeTickEnd true) afterStrobe ∧
        (r.stretch < d.stretch → ran (.strobeTickEnd false)
          { r with stretch := r.stretch + 1, strobeTicks := r.strobeTicks + 1 }) ∧
        (d.stretch ≤ r.stretch → ran (.strobeTickEnd false)
          { r with part := .tail, overrun := true, elapsed := r.elapsed + r.strobeTicks })) ∧
      (s.strobe = true ↔ r.part = .strobe) ∧ (s.dirIn = true ↔ r.inPhase = true ∧ r.part ≠ .tail) ∧
      ∀ i, s.sel i = true ↔ i = r.slot

/-- Whatever the card does with RDY, the accesses of a window whose descriptor the planner formed take no more ticks than
the window has before its gap, and, when every access has run, exactly the ticks of its accesses and of the stretch taken:
no stretch within the allowance delays the window's end (07 R127, R128, R131, 08 R154, R155). -/
def Obligations.WindowEndsOnTime : Prop :=
  ∀ (s t : State) (w : ActiveWindow) (k : Nat) (ident : List Byte) (setup strobe hold : Nat) (commands : List Instr),
    s.inReset = false → s.sequencer.next = some k → s.sequencer.run = none → s.sequencer.active[k]? = some w →
    w.muted = false → (s.slot w.slot).state = .running → s.sequencer.state.trusted = true →
    w.window = descriptorOf ident setup strobe hold →
    (∀ c ∈ commands, c = .accessPartEnd ∨ c = .strobeTickEnd true ∨ c = .strobeTickEnd false) →
    execAll (.windowStart :: commands) s = .next t →
    let d := w.window
    let accesses := (d.outFull + d.inFull) * d.fullAccess + (d.outShort + d.inShort) * d.shortAccess
    ∃ r, t.sequencer.run = some r ∧ t.sel w.slot = true ∧ r.stretch ≤ d.stretch ∧
      r.elapsed + (if r.part = .strobe then r.strobeTicks else 0) ≤ d.length - d.gap ∧
      d.length - d.gap = accesses + d.stretch ∧
      (r.part = .tail → r.overrun = false → r.elapsed = accesses + r.stretch)

/-! ### The admission filter's verdict and the window arithmetic -/

/-- The verdict on an identity code: REFUSE with REJECTED by the lowest-numbered matching REJECT entry, wherever it stands;
else the action, rank and set of the lowest-numbered matching ACCEPT entry; else the default, REFUSE with NO_POLICY, or
CONSENT with rank 255 and no set, with no matched entry. An entry matches in every bit its mask holds 1 (03 R54, R55). -/
def Obligations.VerdictFollowsTable : Prop :=
  ∀ (p : Policy) (code : Long),
    let matching (kind : EntryKind) (n : Fin 16) : Prop := p.entries[n].kind = kind ∧
      ∀ b < 32, p.entries[n].mask.getLsbD b = true → code.getLsbD b = p.entries[n].pattern.getLsbD b
    let lowest (kind : EntryKind) (n : Fin 16) : Prop := matching kind n ∧ ∀ m, m < n → ¬ matching kind m
    (∀ n, lowest .reject n → p.verdict code = .refuse .rejected (some n)) ∧
    ((∀ n, ¬ matching .reject n) → ∀ n, lowest .accept n →
      p.verdict code = .accept p.entries[n].action (some n) p.entries[n].rank p.entries[n].set) ∧
    ((∀ n, ¬ matching .reject n ∧ ¬ matching .accept n) →
      p.verdict code = match p.default with
        | .refuse => .refuse .noPolicy none
        | .consent => .accept .consent none 255 none)

/-- From a card's declarations to its window: times in ticks of 20 ns rounded up, a strobe of at least 1; no descriptor
exactly when setup, strobe or hold needs more than 568 ticks, else each held by the least of the 128 representable values
that covers it; accesses of at least 3 ticks; bursts opened by a full access; stretch at most 400; gap at least 2; the
length their sum; the clamp flags as named; and the usable span by mode (07 R123 to R133). -/
def Obligations.WindowFollowsDeclarations : Prop :=
  (∀ ident : List Byte,
    let ticks (place : Nat) : Nat := (fieldAt ident place 2 + 19) / 20
    let strobe := max 1 (ticks 20)
    let value (code : Nat) : Nat := if code ≤ 63 then code else 64 + 8 * (code - 64)
    let holds (need code q : Nat) : Prop := code ≤ 127 ∧ q = value code ∧ need ≤ q ∧ q ≤ 568 ∧
      ∀ other ≤ 127, need ≤ value other → q ≤ value other
    let width := [1, 2, 4].getD ((ident.getD 11 0).toNat / 16) 0
    let burst := [1, 4, 8].getD ((ident.getD 11 0).toNat % 16) 0
    let outT := (fieldAt ident 14 2 + width - 1) / width
    let inT := (fieldAt ident 16 2 + width - 1) / width
    (windowOf ident = none ↔ 568 < ticks 18 ∨ 568 < strobe ∨ 568 < ticks 22) ∧
    ∀ d flags, windowOf ident = some (d, flags) → (ident.getD 11 0).toNat / 16 < 3 → (ident.getD 11 0).toNat % 16 < 3 →
      holds (ticks 18) d.setupCode d.setupQ ∧ holds strobe d.strobeCode d.strobeQ ∧
      holds (ticks 22) d.holdCode d.holdQ ∧ d.width = width ∧ d.burst = burst ∧
      d.outTransfers = outT ∧ d.inTransfers = inT ∧
      d.fullAccess = max 3 (d.setupQ + d.strobeQ + d.holdQ) ∧ d.shortAccess = max 3 (d.strobeQ + d.holdQ) ∧
      d.outFull = (outT + burst - 1) / burst ∧ d.outFull + d.outShort = outT ∧
      d.inFull = (inT + burst - 1) / burst ∧ d.inFull + d.inShort = inT ∧
      d.stretch = min 400 (ticks 26) ∧ d.gap = (if inT = 0 then 2 else max 2 (ticks 24)) ∧
      d.length = (d.outFull + d.inFull) * d.fullAccess + (d.outShort + d.inShort) * d.shortAccess + d.stretch + d.gap ∧
      flags.stretchClamped = decide (400 < ticks 26) ∧ flags.strobeRaised = decide (ticks 20 = 0) ∧
      flags.accessRaised = decide (d.setupQ + d.strobeQ + d.holdQ < 3 ∨ d.strobeQ + d.holdQ < 3)) ∧
  ∀ length tolerance : Nat,
    usableSpan { mode := .off, length := length, tolerance := tolerance } = length - 300 ∧
    usableSpan { mode := .master, length := length, tolerance := tolerance } = length - 300 ∧
    usableSpan { mode := .follower, length := length, tolerance := tolerance } = length - tolerance - 300

/-! ### The fault recorder -/

/-- REC_SET stores settings in their ranges and clears the ring, in STOPPED alone; REC_ARM starts filling segment W, READY
at once when P is 0, or finds every segment frozen and is FULL; REC_STOP discards the current segment and the held
triggers; REC_RELEASE frees the oldest segment, and a FULL recorder fills it. Each change of state posts a notice, with
cause FULL where REC_ARM enters FULL and STATE_CHANGE elsewhere (09 R163 to R166, R180, R181; unexamined enable bits are
log 22, the counts of STOPPED and FULL log 24, the emptied listing log 25). -/
def Obligations.RecorderCommandsMoveStates : Prop :=
  ∀ (s : State) (tag : Byte), s.takes →
    let r := s.recorder
    let bytes (v : RecSettings) := u8 v.mode ++ u16 v.pre ++ u16 v.overlap ++ u8 v.decimation ++ u16 v.gateTail ++
      u8 v.enables.toNat ++ u8 (if v.traceOut then 1 else 0)
    let moves (command : Instr) (cause : RecCause) (kind : Byte) (data : List Byte) (u : Recorder) : Prop :=
      ∃ t, exec command s = .next (transmit t) ∧ t.recorder = u ∧ t.postedRecorder cause ∧ Answers s t kind tag .ok data ∧
        { t with recorder := s.recorder, link := s.link } = s ∧
        { t.link with replies := s.link.replies, notices := s.link.notices } = s.link
    let filling (u : Recorder) : Recorder :=
      { u with state := if r.settings.pre = 0 then .ready else .fillingPre, writePos := 0, written := 0, pattern := 0,
               skip := 0 }
    let stopped : Recorder := { r with state := .stopped, writePos := 0, written := 0, overlap := none, latches := [] }
    (∀ v : RecSetFields,
      let n : RecSettings := { mode := v.mode.toNat, pre := v.pre.toNat, overlap := v.overlap.toNat,
                               decimation := v.decimation.toNat, gateTail := v.gateTail.toNat,
                               enables := v.enables.setWidth 5, traceOut := v.traceOut.getLsbD 0 }
      let inRange := n.mode ≤ 5 ∧ n.pre < 96 * 2 ^ n.mode ∧ n.overlap + n.pre < 96 * 2 ^ n.mode ∧
        1 ≤ n.decimation ∧ n.decimation ≤ 100 ∧ n.gateTail ≤ 1000
      let cleared : Recorder := { r with settings := n, memory := [], events := [], w := 0, r := 0, lastWrite := false,
                                         refused := 0 }
      (r.state ≠ .stopped →
        exec (.recSet tag v) s = .next (s.replied 0x50 tag .wrongState (bytes r.settings))) ∧
      (r.state = .stopped → ¬ inRange →
        exec (.recSet tag v) s = .next (s.replied 0x50 tag .badArgument (bytes r.settings))) ∧
      (r.state = .stopped → inRange →
        exec (.recSet tag v) s = .next (({ s with recorder := cleared } : State).replied 0x50 tag .ok (bytes n)))) ∧
    (r.state = .stopped → (r.w = r.r ∧ r.lastWrite = true) →
      moves (.recArm tag) .full 0x51 [] { r with state := .full }) ∧
    (r.state = .stopped → ¬ (r.w = r.r ∧ r.lastWrite = true) → moves (.recArm tag) .stateChange 0x51 [] (filling r)) ∧
    (r.state ≠ .stopped → exec (.recArm tag) s = .next (s.replied 0x51 tag .wrongState [])) ∧
    (r.state = .stopped → exec (.recStop tag) s = .next (s.replied 0x52 tag .ok [])) ∧
    (r.state ≠ .stopped → moves (.recStop tag) .stateChange 0x52 [] stopped) ∧
    (r.events = [] → exec (.recRelease tag) s = .next (s.replied 0x56 tag .empty [])) ∧
    ∀ e rest, r.events = e :: rest →
      let freed : Recorder := { r with events := rest, r := (r.r + 1) % (64 / 2 ^ r.settings.mode), lastWrite := false }
      (r.state = .full → moves (.recRelease tag) .stateChange 0x56 (u16 e.sequence) (filling freed)) ∧
      (r.state ≠ .full → exec (.recRelease tag) s =
        .next (({ s with recorder := freed } : State).replied 0x56 tag .ok (u16 e.sequence)))

/-- REC_EVENT replies with the oldest record and REC_DATA with n stored frames of its segment from a chronological offset
on, EMPTY without a record, BAD_ARGUMENT outside 1 to 8 frames or beyond the segment; REC_STATUS replies with its items in
order (09 R178, R179, 11.6). Reading changes nothing. The bytes of absent fields and the order of the two latches are
log 20, the counts of STOPPED and FULL log 24. -/
def Obligations.RecorderReports : Prop :=
  ∀ (s : State) (tag : Byte), s.takes →
    let r := s.recorder
    let v := r.settings
    let frames := 96 * 2 ^ v.mode
    let bit (b : Bool) : List Byte := [if b then 0x01 else 0x00]
    (r.events = [] → exec (.recEvent tag) s = .next (s.replied 0x54 tag .empty [])) ∧
    (∀ e rest, r.events = e :: rest → exec (.recEvent tag) s = .next (s.replied 0x54 tag .ok
      (u16 e.sequence ++ u8 e.segment ++ u16 e.stop ++ u16 e.triggerIndex ++ u16 e.pre ++ u8 e.source.source.code ++
        (match e.source.slot with
         | some i => 0x01 :: u8 i.val
         | none => [0x00, 0x00]) ++
        u16 e.pattern.toNat ++ u32 e.time.toNat ++ u32 e.cycle.toNat ++ bit e.gateOpen ++ u8 e.refused))) ∧
    (∀ (offset : Word) (count : Byte),
      let allowed := 1 ≤ count.toNat ∧ count.toNat ≤ 8 ∧ offset.toNat + count.toNat ≤ frames
      (¬ allowed → exec (.recData tag offset count) s = .next (s.replied 0x55 tag .badArgument [])) ∧
      (allowed → r.events = [] → exec (.recData tag offset count) s = .next (s.replied 0x55 tag .empty [])) ∧
      ∀ e rest, allowed → r.events = e :: rest →
        exec (.recData tag offset count) s = .next (s.replied 0x55 tag .ok
          (u16 offset.toNat ++ u8 count.toNat ++ (List.range count.toNat).flatMap fun j =>
            let f := readPlace r.memory (r.r * frames + (e.stop + 1 + (offset.toNat + j)) % frames)
            (f.currents.toList.flatMap fun x => u16 x.toNat) ++ u16 f.rail.toNat ++ u16 f.pg.toNat))) ∧
    exec (.recStatus tag) s = .next (s.replied 0x57 tag .ok
      (u8 r.state.code ++
        optional u8 (match r.state with
          | .capturing c => some (if v.overlap < c.remaining then 0 else 1)
          | .stopped | .fillingPre | .ready | .full => none) ++
        u8 v.mode ++ u16 v.pre ++ u16 v.overlap ++ u8 v.decimation ++ u16 v.gateTail ++ u8 v.enables.toNat ++
        bit v.traceOut ++ u8 r.w ++ u8 r.r ++ bit r.lastWrite ++ u8 r.frozen ++ u16 r.writePos ++ u16 r.written ++
        optional u16 (match r.state with
          | .capturing c => some c.remaining
          | .stopped | .fillingPre | .ready | .full => none) ++
        optional u8 (r.overlap.map fun t => t.source.code) ++
        optional u8 (r.overlap.bind fun t => t.slot.map Fin.val) ++ bit (r.latches.contains .host) ++
        bit (r.latches.contains .external) ++ u16 r.pattern.toNat ++ bit r.gateOpen ++ u8 r.refused ++ u16 r.sequence))

/-- Triggers and the gate: an enabled trigger is refused and counted in FILLING_PRE and FULL, starts a capture in READY,
is ignored (gated) or latched (ungated) in the inhibit phase, sets overlap-pending in the overlap phase, and is without
effect in STOPPED or with its source disabled; a start and an overlap-pending pulse TRACE_OUT when it is enabled.
REC_TRIGGER presents HOST and replies with its fate, TRIGGER_TAKEN takes a presented one, TRACE_IN_TRIGGER presents
EXTERNAL, TRACE_OUT_PULSE_END returns the line high; GATE_REPORT_TAKEN and GATE_TAIL_EXPIRY run the gate's count and tail
(09 R164, R168 to R173, R176; events out of place are log 4; that a capture's start posts no notice is
log 23). -/
def Obligations.RecorderTakesTriggersAndGate : Prop :=
  ∀ (s : State) (tag : Byte), s.inReset = false →
    let r := s.recorder
    let v := r.settings
    let pulsed (u : Recorder) : Recorder := if v.traceOut then { u with traceOutLow := true } else u
    let started (x : Trigger) : Capture :=
      { source := x, remaining := 96 * 2 ^ v.mode - v.pre, awaiting := true, pre := v.pre, triggerIndex := 0, time := 0,
        cycle := 0 }
    let taken (u : Recorder) (x : Trigger) : Recorder × Byte :=
      if v.enables.getLsbD x.source.code = false then (u, 5)
      else match u.state with
        | .stopped => (u, 5)
        | .fillingPre | .full => ({ u with refused := if u.refused < 255 then u.refused + 1 else u.refused }, 4)
        | .ready => (pulsed { u with state := .capturing (started x) }, 0)
        | .capturing c =>
          if v.overlap < c.remaining then
            if x.source = .slotOvercurrent ∨ x.source = .slotPowerLost ∨ x.source = .railDip then (u, 5)
            else if x.source ∈ u.latches then (u, 3)
            else ({ u with latches := u.latches ++ [x.source] }, 1)
          else if u.overlap.isSome then (u, 3) else (pulsed { u with overlap := some x }, 2)
    let host := taken r { source := .host, slot := none }
    (s.takes → r.state = .stopped → exec (.recTrigger tag) s = .next (s.replied 0x53 tag .wrongState [])) ∧
    (s.takes → r.state ≠ .stopped →
      exec (.recTrigger tag) s = .next (({ s with recorder := host.1 } : State).replied 0x53 tag .ok [host.2])) ∧
    (∀ x ∈ r.triggers, exec (.triggerTaken x) s =
      .next { s with recorder := (taken { r with triggers := r.triggers.erase x } x).1 }) ∧
    (∀ x, x ∉ r.triggers → exec (.triggerTaken x) s = .next s) ∧
    exec .traceInTrigger s =
      .next { s with recorder := { r with triggers := r.triggers ++ [{ source := .external, slot := none }] } } ∧
    exec .traceOutPulseEnd s = .next { s with recorder := { r with traceOutLow := false } } ∧
    (∀ (i : SlotId) (before after : List GateReport) (g : GateReport), r.gateReports = before ++ g :: after →
      (∀ h ∈ before, h.slot ≠ i) → g.slot = i →
      let u : Recorder := { r with gateReports := before ++ after }
      exec (.gateReportTaken i) s = .next { s with recorder :=
        if g.entering then
          if r.gateCount = 0 then { u with gateCount := 1, gateOpen := true, gateTail := none }
          else { u with gateCount := r.gateCount + 1 }
        else if r.gateCount = 1 then
          if v.gateTail = 0 then { u with gateCount := 0, gateOpen := false }
          else { u with gateCount := 0, gateTail := some v.gateTail }
        else { u with gateCount := r.gateCount - 1 } }) ∧
    (∀ i : SlotId, (∀ g ∈ r.gateReports, g.slot ≠ i) → exec (.gateReportTaken i) s = .next s) ∧
    exec .gateTailExpiry s =
      .next (if r.gateTail.isSome then { s with recorder := { r with gateTail := none, gateOpen := false } } else s)

/-- RECORDER_FRAME_TAKEN stores the frame at segment W's write position and nowhere else, when the decimation or an awaited
trigger frame selects it: FILLING_PRE becomes READY at P frames; a capture counts down, turns its earlier latch into
overlap-pending at O, and freezes at 0, kept with an event record when its source is ungated or the gate is open (then
FULL, a chained capture, or filling the next segment), else discarded. In STOPPED and FULL the frame is discarded
(09 R162, R163, R167, R171 to R177, R181; the write position and the written count that FULL is left with are the model's
choice, log 24). -/
def Obligations.RecorderStoresFrames : Prop :=
  ∀ (s : State) (f : MonitorFrame) (rest : List MonitorFrame), s.inReset = false → s.recorder.sound →
    s.recorder.frames = f :: rest →
    let r : Recorder := { s.recorder with frames := rest }
    let v := r.settings
    let L := 96 * 2 ^ v.mode
    let S := 64 / 2 ^ v.mode
    let passes := exec .recorderFrameTaken s = .next { s with recorder := { r with skip := r.skip - 1 } }
    let storing (ends : State → State) (p : Recorder → State → Prop) : Prop :=
      ∃ m t, exec .recorderFrameTaken s = .next (ends t) ∧
        (∀ a, readPlace m a = if a = r.w * L + r.writePos then f.sample else readPlace s.recorder.memory a) ∧
        { t with slots := s.slots, recorder := s.recorder, link := s.link } = s ∧
        { t.link with notices := s.link.notices } = s.link ∧
        p { r with memory := m, writePos := (r.writePos + 1) % L, written := min L (r.written + 1),
                   skip := v.decimation - 1 } t
    let stores (p : Recorder → State → Prop) : Prop := storing (fun t => t) p
    let posts (p : Recorder → State → Prop) : Prop := storing transmit p
    let silent (u : Recorder) (t : State) : Prop := t.recorder = u ∧ t.slots = s.slots ∧ t.link = s.link
    let started (x : Trigger) (pre : Nat) : RecState := .capturing
      { source := x, remaining := L - pre, awaiting := true, pre := pre, triggerIndex := 0, time := 0, cycle := 0 }
    let current (u : Recorder) : Recorder := { u with writePos := 0, written := 0, pattern := 0, overlap := none }
    (r.state = .stopped ∨ r.state = .full → exec .recorderFrameTaken s = .next { s with recorder := r }) ∧
    (r.state = .fillingPre → r.skip ≠ 0 → passes) ∧
    (r.state = .fillingPre → r.skip = 0 → r.written + 1 < v.pre → stores silent) ∧
    (r.state = .fillingPre → r.skip = 0 → v.pre ≤ r.written + 1 → posts fun u t =>
      t.recorder = { u with state := .ready } ∧ t.slots = s.slots ∧ t.postedRecorder .stateChange) ∧
    (r.state = .ready → r.skip ≠ 0 → passes) ∧
    (r.state = .ready → r.skip = 0 → stores silent) ∧
    ∀ c, r.state = .capturing c →
      let counted : Capture := if c.awaiting then
          { c with awaiting := false, remaining := c.remaining - 1, triggerIndex := r.writePos, time := f.time,
                   cycle := s.sequencer.cycleCount }
        else { c with remaining := c.remaining - 1 }
      let latched := counted.remaining = v.overlap ∧ r.latches ≠ []
      let pending := if latched then r.latches.head?.map fun x => { source := x, slot := none } else r.overlap
      let phased (u : Recorder) : Recorder :=
        { u with overlap := pending, latches := if latched then [] else u.latches,
                 traceOutLow := u.traceOutLow || (decide latched && v.traceOut) }
      let ungated (x : Trigger) : Prop := x.source = .host ∨ x.source = .external
      let kept := ungated c.source ∨ r.gateOpen = true
      let w := (r.w + 1) % S
      let record : EventRecord :=
        { sequence := r.sequence, segment := r.w, stop := r.writePos, triggerIndex := counted.triggerIndex,
          pre := c.pre, source := c.source, pattern := r.pattern, time := counted.time, cycle := counted.cycle,
          gateOpen := r.gateOpen, refused := r.refused }
      let pushed (u : Recorder) : Recorder :=
        { phased u with events := r.events ++ [record], sequence := (r.sequence + 1) % 65536, refused := 0, w := w,
                        lastWrite := true }
      let referred (t : State) : Prop := ∀ i, t.slot i =
        if c.source.slot = some i then { s.slot i with traceRef := some r.sequence } else s.slot i
      (c.awaiting = false → r.skip ≠ 0 → passes) ∧
      (c.awaiting = true ∨ r.skip = 0 →
        (1 < c.remaining → stores fun u t => silent { phased u with state := .capturing counted } t) ∧
        (c.remaining ≤ 1 → kept → w = r.r → posts fun u t => referred t ∧ t.postedRecorder .full ∧
          t.recorder = { pushed u with state := .full, refused := if pending.isSome then 1 else 0, overlap := none }) ∧
        (∀ x, c.remaining ≤ 1 → kept → w ≠ r.r → pending = some x → posts fun u t => referred t ∧
          t.postedRecorder .record ∧ t.recorder = { current (pushed u) with state := started x 0 }) ∧
        (c.remaining ≤ 1 → kept → w ≠ r.r → pending = none → posts fun u t => referred t ∧
          t.postedRecorder .record ∧
          t.recorder = { current (pushed u) with state := if v.pre = 0 then .ready else .fillingPre }) ∧
        (∀ x, c.remaining ≤ 1 → ¬ kept → pending = some x → ungated x → posts fun u t => t.slots = s.slots ∧
          t.postedRecorder .discard ∧
          t.recorder = { phased u with pattern := 0, overlap := none, state := started x v.pre }) ∧
        (c.remaining ≤ 1 → ¬ kept → (∀ x, pending = some x → ¬ ungated x) → posts fun u t => t.slots = s.slots ∧
          t.postedRecorder .discard ∧
          t.recorder = { phased u with pattern := 0, overlap := none, state := .ready }))
end

