-- ==== Sys2Proof/Laws/State.lean ====
section
/-!
SUPPORT. What each update of the state leaves in each field, one lemma a field, so that no proof unfolds a record update.
-/
namespace Sys2Proof.Machine

/-! ### Slots read after an update -/

@[simp] theorem slot_setSlot_self (s : State) (i : SlotId) (c : Slot) : (s.setSlot i c).slot i = c := by
  simp [State.setSlot, State.slot]

@[simp] theorem slot_setSlot_ne (s : State) {i j : SlotId} (c : Slot) (h : j ≠ i) :
    (s.setSlot i c).slot j = s.slot j := by
  have hne : i.val ≠ j.val := fun e => h (Fin.ext e.symm)
  simp [State.setSlot, State.slot, hne]

theorem slot_setSlot (s : State) (i j : SlotId) (c : Slot) :
    (s.setSlot i c).slot j = if j = i then c else s.slot j := by
  by_cases h : j = i
  · subst h; simp
  · simp [h]

@[simp] theorem setSlot_slot (s : State) (i : SlotId) : s.setSlot i (s.slot i) = s := by
  cases s
  simp [State.setSlot, State.slot]

@[simp] theorem setSlot_setSlot (s : State) (i : SlotId) (c d : Slot) : (s.setSlot i c).setSlot i d = s.setSlot i d := by
  simp [State.setSlot]

theorem updSlot_eq (s : State) (i : SlotId) (f : Slot → Slot) : s.updSlot i f = s.setSlot i (f (s.slot i)) := rfl

@[simp] theorem slot_updSlot_self (s : State) (i : SlotId) (f : Slot → Slot) :
    (s.updSlot i f).slot i = f (s.slot i) := by simp [State.updSlot]

@[simp] theorem slot_updSlot_ne (s : State) {i j : SlotId} (f : Slot → Slot) (h : j ≠ i) :
    (s.updSlot i f).slot j = s.slot j := by simp [State.updSlot, h]

/-- A change of every slot at once. -/
theorem slot_mapSlots (s : State) (f : Slot → Slot) (i : SlotId) :
    ({ s with slots := s.slots.map f } : State).slot i = f (s.slot i) := by simp [State.slot]

/-- A slot is read from the slots alone. -/
theorem slot_congr {s t : State} (j : SlotId) (h : t.slots = s.slots) : t.slot j = s.slot j := by
  unfold State.slot; rw [h]

/-- A state that has one slot replaced has every other as before. -/
theorem slot_of_set {s t : State} {i j : SlotId} {c : Slot} (h : t.slots = s.slots.set i c) (hj : j ≠ i) :
    t.slot j = s.slot j :=
  (slot_congr (s := s.setSlot i c) j h).trans (slot_setSlot_ne s c hj)

/-- Two states with the same slots, read one by one, have the same slots. -/
theorem slots_ext {s t : State} (h : ∀ i, t.slot i = s.slot i) : t.slots = s.slots := by
  apply Vector.ext
  intro k hk
  exact h ⟨k, hk⟩

/-! ### A slot replaced -/

@[simp] theorem setSlot_pending (s : State) (i : SlotId) (c : Slot) : (s.setSlot i c).pending = s.pending := rfl
@[simp] theorem setSlot_inReset (s : State) (i : SlotId) (c : Slot) : (s.setSlot i c).inReset = s.inReset := rfl
@[simp] theorem setSlot_times (s : State) (i : SlotId) (c : Slot) : (s.setSlot i c).times = s.times := rfl
@[simp] theorem setSlot_engine (s : State) (i : SlotId) (c : Slot) : (s.setSlot i c).engine = s.engine := rfl
@[simp] theorem setSlot_policy (s : State) (i : SlotId) (c : Slot) : (s.setSlot i c).policy = s.policy := rfl
@[simp] theorem setSlot_keys (s : State) (i : SlotId) (c : Slot) : (s.setSlot i c).keys = s.keys := rfl
@[simp] theorem setSlot_arbiter (s : State) (i : SlotId) (c : Slot) : (s.setSlot i c).arbiter = s.arbiter := rfl
@[simp] theorem setSlot_monitor (s : State) (i : SlotId) (c : Slot) : (s.setSlot i c).monitor = s.monitor := rfl
@[simp] theorem setSlot_sets (s : State) (i : SlotId) (c : Slot) : (s.setSlot i c).sets = s.sets := rfl
@[simp] theorem setSlot_planner (s : State) (i : SlotId) (c : Slot) : (s.setSlot i c).planner = s.planner := rfl
@[simp] theorem setSlot_sequencer (s : State) (i : SlotId) (c : Slot) : (s.setSlot i c).sequencer = s.sequencer := rfl
@[simp] theorem setSlot_recorder (s : State) (i : SlotId) (c : Slot) : (s.setSlot i c).recorder = s.recorder := rfl
@[simp] theorem setSlot_link (s : State) (i : SlotId) (c : Slot) : (s.setSlot i c).link = s.link := rfl

/-! ### A slot changed -/

@[simp] theorem updSlot_pending (s : State) (i : SlotId) (f : Slot → Slot) : (s.updSlot i f).pending = s.pending := rfl
@[simp] theorem updSlot_inReset (s : State) (i : SlotId) (f : Slot → Slot) : (s.updSlot i f).inReset = s.inReset := rfl
@[simp] theorem updSlot_times (s : State) (i : SlotId) (f : Slot → Slot) : (s.updSlot i f).times = s.times := rfl
@[simp] theorem updSlot_engine (s : State) (i : SlotId) (f : Slot → Slot) : (s.updSlot i f).engine = s.engine := rfl
@[simp] theorem updSlot_policy (s : State) (i : SlotId) (f : Slot → Slot) : (s.updSlot i f).policy = s.policy := rfl
@[simp] theorem updSlot_keys (s : State) (i : SlotId) (f : Slot → Slot) : (s.updSlot i f).keys = s.keys := rfl
@[simp] theorem updSlot_arbiter (s : State) (i : SlotId) (f : Slot → Slot) : (s.updSlot i f).arbiter = s.arbiter := rfl
@[simp] theorem updSlot_monitor (s : State) (i : SlotId) (f : Slot → Slot) : (s.updSlot i f).monitor = s.monitor := rfl
@[simp] theorem updSlot_sets (s : State) (i : SlotId) (f : Slot → Slot) : (s.updSlot i f).sets = s.sets := rfl
@[simp] theorem updSlot_planner (s : State) (i : SlotId) (f : Slot → Slot) : (s.updSlot i f).planner = s.planner := rfl
@[simp] theorem updSlot_sequencer (s : State) (i : SlotId) (f : Slot → Slot) : (s.updSlot i f).sequencer = s.sequencer := rfl
@[simp] theorem updSlot_recorder (s : State) (i : SlotId) (f : Slot → Slot) : (s.updSlot i f).recorder = s.recorder := rfl
@[simp] theorem updSlot_link (s : State) (i : SlotId) (f : Slot → Slot) : (s.updSlot i f).link = s.link := rfl

/-! ### The queue replaced -/

@[simp] theorem withPending_inReset (s : State) (q : List Instr) : (s.withPending q).inReset = s.inReset := rfl
@[simp] theorem withPending_slots (s : State) (q : List Instr) : (s.withPending q).slots = s.slots := rfl
@[simp] theorem withPending_times (s : State) (q : List Instr) : (s.withPending q).times = s.times := rfl
@[simp] theorem withPending_engine (s : State) (q : List Instr) : (s.withPending q).engine = s.engine := rfl
@[simp] theorem withPending_policy (s : State) (q : List Instr) : (s.withPending q).policy = s.policy := rfl
@[simp] theorem withPending_keys (s : State) (q : List Instr) : (s.withPending q).keys = s.keys := rfl
@[simp] theorem withPending_arbiter (s : State) (q : List Instr) : (s.withPending q).arbiter = s.arbiter := rfl
@[simp] theorem withPending_monitor (s : State) (q : List Instr) : (s.withPending q).monitor = s.monitor := rfl
@[simp] theorem withPending_sets (s : State) (q : List Instr) : (s.withPending q).sets = s.sets := rfl
@[simp] theorem withPending_planner (s : State) (q : List Instr) : (s.withPending q).planner = s.planner := rfl
@[simp] theorem withPending_sequencer (s : State) (q : List Instr) : (s.withPending q).sequencer = s.sequencer := rfl
@[simp] theorem withPending_recorder (s : State) (q : List Instr) : (s.withPending q).recorder = s.recorder := rfl
@[simp] theorem withPending_link (s : State) (q : List Instr) : (s.withPending q).link = s.link := rfl
@[simp] theorem withPending_pending (s : State) (q : List Instr) : (s.withPending q).pending = q := rfl
@[simp] theorem slot_withPending (s : State) (q : List Instr) (i : SlotId) : (s.withPending q).slot i = s.slot i := rfl

/-! ### A notice posted -/

@[simp] theorem postNotice_pending (n : Notice) (s : State) : (postNotice n s).pending = s.pending := rfl
@[simp] theorem postNotice_inReset (n : Notice) (s : State) : (postNotice n s).inReset = s.inReset := rfl
@[simp] theorem postNotice_slots (n : Notice) (s : State) : (postNotice n s).slots = s.slots := rfl
@[simp] theorem postNotice_times (n : Notice) (s : State) : (postNotice n s).times = s.times := rfl
@[simp] theorem postNotice_engine (n : Notice) (s : State) : (postNotice n s).engine = s.engine := rfl
@[simp] theorem postNotice_policy (n : Notice) (s : State) : (postNotice n s).policy = s.policy := rfl
@[simp] theorem postNotice_keys (n : Notice) (s : State) : (postNotice n s).keys = s.keys := rfl
@[simp] theorem postNotice_arbiter (n : Notice) (s : State) : (postNotice n s).arbiter = s.arbiter := rfl
@[simp] theorem postNotice_monitor (n : Notice) (s : State) : (postNotice n s).monitor = s.monitor := rfl
@[simp] theorem postNotice_sets (n : Notice) (s : State) : (postNotice n s).sets = s.sets := rfl
@[simp] theorem postNotice_planner (n : Notice) (s : State) : (postNotice n s).planner = s.planner := rfl
@[simp] theorem postNotice_sequencer (n : Notice) (s : State) : (postNotice n s).sequencer = s.sequencer := rfl
@[simp] theorem postNotice_recorder (n : Notice) (s : State) : (postNotice n s).recorder = s.recorder := rfl
@[simp] theorem postNotice_notices (n : Notice) (s : State) :
    (postNotice n s).link.notices = placeNotice n s.link.notices := rfl
@[simp] theorem postNotice_replies (n : Notice) (s : State) : (postNotice n s).link.replies = s.link.replies := rfl
@[simp] theorem postNotice_tx (n : Notice) (s : State) : (postNotice n s).link.tx = s.link.tx := rfl
@[simp] theorem postNotice_receiver (n : Notice) (s : State) : (postNotice n s).link.receiver = s.link.receiver := rfl
@[simp] theorem postNotice_rate (n : Notice) (s : State) : (postNotice n s).link.rate = s.link.rate := rfl
@[simp] theorem postNotice_restartWait (n : Notice) (s : State) :
    (postNotice n s).link.restartWait = s.link.restartWait := rfl
@[simp] theorem postNotice_checkFailures (n : Notice) (s : State) :
    (postNotice n s).link.checkFailures = s.link.checkFailures := rfl
@[simp] theorem postNotice_gapAborts (n : Notice) (s : State) :
    (postNotice n s).link.gapAborts = s.link.gapAborts := rfl
@[simp] theorem postNotice_overruns (n : Notice) (s : State) : (postNotice n s).link.overruns = s.link.overruns := rfl
@[simp] theorem slot_postNotice (n : Notice) (s : State) (i : SlotId) : (postNotice n s).slot i = s.slot i := rfl

/-! ### A notice posted: postSlot -/

@[simp] theorem postSlot_pending (i : SlotId) (s : State) : (postSlot i s).pending = s.pending := rfl
@[simp] theorem postSlot_inReset (i : SlotId) (s : State) : (postSlot i s).inReset = s.inReset := rfl
@[simp] theorem postSlot_slots (i : SlotId) (s : State) : (postSlot i s).slots = s.slots := rfl
@[simp] theorem postSlot_times (i : SlotId) (s : State) : (postSlot i s).times = s.times := rfl
@[simp] theorem postSlot_engine (i : SlotId) (s : State) : (postSlot i s).engine = s.engine := rfl
@[simp] theorem postSlot_policy (i : SlotId) (s : State) : (postSlot i s).policy = s.policy := rfl
@[simp] theorem postSlot_keys (i : SlotId) (s : State) : (postSlot i s).keys = s.keys := rfl
@[simp] theorem postSlot_arbiter (i : SlotId) (s : State) : (postSlot i s).arbiter = s.arbiter := rfl
@[simp] theorem postSlot_monitor (i : SlotId) (s : State) : (postSlot i s).monitor = s.monitor := rfl
@[simp] theorem postSlot_sets (i : SlotId) (s : State) : (postSlot i s).sets = s.sets := rfl
@[simp] theorem postSlot_planner (i : SlotId) (s : State) : (postSlot i s).planner = s.planner := rfl
@[simp] theorem postSlot_sequencer (i : SlotId) (s : State) : (postSlot i s).sequencer = s.sequencer := rfl
@[simp] theorem postSlot_recorder (i : SlotId) (s : State) : (postSlot i s).recorder = s.recorder := rfl
@[simp] theorem slot_postSlot (i : SlotId) (s : State) (j : SlotId) : (postSlot i s).slot j = s.slot j := rfl
@[simp] theorem postSlot_replies (i : SlotId) (s : State) : (postSlot i s).link.replies = s.link.replies := rfl

/-! ### A notice posted: postCycle -/

@[simp] theorem postCycle_pending (c : CycleCause) (s : State) : (postCycle c s).pending = s.pending := rfl
@[simp] theorem postCycle_inReset (c : CycleCause) (s : State) : (postCycle c s).inReset = s.inReset := rfl
@[simp] theorem postCycle_slots (c : CycleCause) (s : State) : (postCycle c s).slots = s.slots := rfl
@[simp] theorem postCycle_times (c : CycleCause) (s : State) : (postCycle c s).times = s.times := rfl
@[simp] theorem postCycle_engine (c : CycleCause) (s : State) : (postCycle c s).engine = s.engine := rfl
@[simp] theorem postCycle_policy (c : CycleCause) (s : State) : (postCycle c s).policy = s.policy := rfl
@[simp] theorem postCycle_keys (c : CycleCause) (s : State) : (postCycle c s).keys = s.keys := rfl
@[simp] theorem postCycle_arbiter (c : CycleCause) (s : State) : (postCycle c s).arbiter = s.arbiter := rfl
@[simp] theorem postCycle_monitor (c : CycleCause) (s : State) : (postCycle c s).monitor = s.monitor := rfl
@[simp] theorem postCycle_sets (c : CycleCause) (s : State) : (postCycle c s).sets = s.sets := rfl
@[simp] theorem postCycle_planner (c : CycleCause) (s : State) : (postCycle c s).planner = s.planner := rfl
@[simp] theorem postCycle_sequencer (c : CycleCause) (s : State) : (postCycle c s).sequencer = s.sequencer := rfl
@[simp] theorem postCycle_recorder (c : CycleCause) (s : State) : (postCycle c s).recorder = s.recorder := rfl
@[simp] theorem slot_postCycle (c : CycleCause) (s : State) (j : SlotId) : (postCycle c s).slot j = s.slot j := rfl
@[simp] theorem postCycle_replies (c : CycleCause) (s : State) : (postCycle c s).link.replies = s.link.replies := rfl

/-! ### A notice posted: postRecorder -/

@[simp] theorem postRecorder_pending (c : RecCause) (s : State) : (postRecorder c s).pending = s.pending := rfl
@[simp] theorem postRecorder_inReset (c : RecCause) (s : State) : (postRecorder c s).inReset = s.inReset := rfl
@[simp] theorem postRecorder_slots (c : RecCause) (s : State) : (postRecorder c s).slots = s.slots := rfl
@[simp] theorem postRecorder_times (c : RecCause) (s : State) : (postRecorder c s).times = s.times := rfl
@[simp] theorem postRecorder_engine (c : RecCause) (s : State) : (postRecorder c s).engine = s.engine := rfl
@[simp] theorem postRecorder_policy (c : RecCause) (s : State) : (postRecorder c s).policy = s.policy := rfl
@[simp] theorem postRecorder_keys (c : RecCause) (s : State) : (postRecorder c s).keys = s.keys := rfl
@[simp] theorem postRecorder_arbiter (c : RecCause) (s : State) : (postRecorder c s).arbiter = s.arbiter := rfl
@[simp] theorem postRecorder_monitor (c : RecCause) (s : State) : (postRecorder c s).monitor = s.monitor := rfl
@[simp] theorem postRecorder_sets (c : RecCause) (s : State) : (postRecorder c s).sets = s.sets := rfl
@[simp] theorem postRecorder_planner (c : RecCause) (s : State) : (postRecorder c s).planner = s.planner := rfl
@[simp] theorem postRecorder_sequencer (c : RecCause) (s : State) : (postRecorder c s).sequencer = s.sequencer := rfl
@[simp] theorem postRecorder_recorder (c : RecCause) (s : State) : (postRecorder c s).recorder = s.recorder := rfl
@[simp] theorem slot_postRecorder (c : RecCause) (s : State) (j : SlotId) : (postRecorder c s).slot j = s.slot j := rfl
@[simp] theorem postRecorder_replies (c : RecCause) (s : State) : (postRecorder c s).link.replies = s.link.replies := rfl

/-! ### A reply queued -/

@[simp] theorem queueReply_pending (kind tag : Byte) (a : Answer) (s : State) : (queueReply kind tag a s).pending = s.pending := rfl
@[simp] theorem queueReply_inReset (kind tag : Byte) (a : Answer) (s : State) : (queueReply kind tag a s).inReset = s.inReset := rfl
@[simp] theorem queueReply_slots (kind tag : Byte) (a : Answer) (s : State) : (queueReply kind tag a s).slots = s.slots := rfl
@[simp] theorem queueReply_times (kind tag : Byte) (a : Answer) (s : State) : (queueReply kind tag a s).times = s.times := rfl
@[simp] theorem queueReply_engine (kind tag : Byte) (a : Answer) (s : State) : (queueReply kind tag a s).engine = s.engine := rfl
@[simp] theorem queueReply_policy (kind tag : Byte) (a : Answer) (s : State) : (queueReply kind tag a s).policy = s.policy := rfl
@[simp] theorem queueReply_keys (kind tag : Byte) (a : Answer) (s : State) : (queueReply kind tag a s).keys = s.keys := rfl
@[simp] theorem queueReply_arbiter (kind tag : Byte) (a : Answer) (s : State) : (queueReply kind tag a s).arbiter = s.arbiter := rfl
@[simp] theorem queueReply_monitor (kind tag : Byte) (a : Answer) (s : State) : (queueReply kind tag a s).monitor = s.monitor := rfl
@[simp] theorem queueReply_sets (kind tag : Byte) (a : Answer) (s : State) : (queueReply kind tag a s).sets = s.sets := rfl
@[simp] theorem queueReply_planner (kind tag : Byte) (a : Answer) (s : State) : (queueReply kind tag a s).planner = s.planner := rfl
@[simp] theorem queueReply_sequencer (kind tag : Byte) (a : Answer) (s : State) : (queueReply kind tag a s).sequencer = s.sequencer := rfl
@[simp] theorem queueReply_recorder (kind tag : Byte) (a : Answer) (s : State) : (queueReply kind tag a s).recorder = s.recorder := rfl
@[simp] theorem slot_queueReply (kind tag : Byte) (a : Answer) (s : State) (i : SlotId) :
    (queueReply kind tag a s).slot i = s.slot i := rfl
@[simp] theorem queueReply_notices (kind tag : Byte) (a : Answer) (s : State) :
    (queueReply kind tag a s).link.notices = s.link.notices := rfl
@[simp] theorem queueReply_replies (kind tag : Byte) (a : Answer) (s : State) : (queueReply kind tag a s).link.replies =
    s.link.replies ++ [{ kind := kind ||| 0x80, tag := tag, payload := a.status.code :: a.data }] := rfl

/-! ### The recorder replaced -/

@[simp] theorem setRecorder_pending (s : State) (r : Recorder) : (s.setRecorder r).pending = s.pending := rfl
@[simp] theorem setRecorder_inReset (s : State) (r : Recorder) : (s.setRecorder r).inReset = s.inReset := rfl
@[simp] theorem setRecorder_slots (s : State) (r : Recorder) : (s.setRecorder r).slots = s.slots := rfl
@[simp] theorem setRecorder_times (s : State) (r : Recorder) : (s.setRecorder r).times = s.times := rfl
@[simp] theorem setRecorder_engine (s : State) (r : Recorder) : (s.setRecorder r).engine = s.engine := rfl
@[simp] theorem setRecorder_policy (s : State) (r : Recorder) : (s.setRecorder r).policy = s.policy := rfl
@[simp] theorem setRecorder_keys (s : State) (r : Recorder) : (s.setRecorder r).keys = s.keys := rfl
@[simp] theorem setRecorder_arbiter (s : State) (r : Recorder) : (s.setRecorder r).arbiter = s.arbiter := rfl
@[simp] theorem setRecorder_monitor (s : State) (r : Recorder) : (s.setRecorder r).monitor = s.monitor := rfl
@[simp] theorem setRecorder_sets (s : State) (r : Recorder) : (s.setRecorder r).sets = s.sets := rfl
@[simp] theorem setRecorder_planner (s : State) (r : Recorder) : (s.setRecorder r).planner = s.planner := rfl
@[simp] theorem setRecorder_sequencer (s : State) (r : Recorder) : (s.setRecorder r).sequencer = s.sequencer := rfl
@[simp] theorem setRecorder_link (s : State) (r : Recorder) : (s.setRecorder r).link = s.link := rfl
@[simp] theorem setRecorder_recorder (s : State) (r : Recorder) : (s.setRecorder r).recorder = r := rfl
@[simp] theorem slot_setRecorder (s : State) (r : Recorder) (i : SlotId) : (s.setRecorder r).slot i = s.slot i := rfl

/-! ### A parameter set replaced -/

@[simp] theorem storeSet_pending (n : Fin 8) (p : ParamSet) (s : State) : (storeSet n p s).pending = s.pending := rfl
@[simp] theorem storeSet_inReset (n : Fin 8) (p : ParamSet) (s : State) : (storeSet n p s).inReset = s.inReset := rfl
@[simp] theorem storeSet_slots (n : Fin 8) (p : ParamSet) (s : State) : (storeSet n p s).slots = s.slots := rfl
@[simp] theorem storeSet_times (n : Fin 8) (p : ParamSet) (s : State) : (storeSet n p s).times = s.times := rfl
@[simp] theorem storeSet_engine (n : Fin 8) (p : ParamSet) (s : State) : (storeSet n p s).engine = s.engine := rfl
@[simp] theorem storeSet_policy (n : Fin 8) (p : ParamSet) (s : State) : (storeSet n p s).policy = s.policy := rfl
@[simp] theorem storeSet_keys (n : Fin 8) (p : ParamSet) (s : State) : (storeSet n p s).keys = s.keys := rfl
@[simp] theorem storeSet_arbiter (n : Fin 8) (p : ParamSet) (s : State) : (storeSet n p s).arbiter = s.arbiter := rfl
@[simp] theorem storeSet_monitor (n : Fin 8) (p : ParamSet) (s : State) : (storeSet n p s).monitor = s.monitor := rfl
@[simp] theorem storeSet_planner (n : Fin 8) (p : ParamSet) (s : State) : (storeSet n p s).planner = s.planner := rfl
@[simp] theorem storeSet_sequencer (n : Fin 8) (p : ParamSet) (s : State) : (storeSet n p s).sequencer = s.sequencer := rfl
@[simp] theorem storeSet_recorder (n : Fin 8) (p : ParamSet) (s : State) : (storeSet n p s).recorder = s.recorder := rfl
@[simp] theorem storeSet_link (n : Fin 8) (p : ParamSet) (s : State) : (storeSet n p s).link = s.link := rfl
@[simp] theorem slot_storeSet (n : Fin 8) (p : ParamSet) (s : State) (i : SlotId) : (storeSet n p s).slot i = s.slot i := rfl

/-! ### A policy entry replaced -/

@[simp] theorem storeEntry_pending (n : Fin 16) (e : PolicyEntry) (s : State) : (storeEntry n e s).pending = s.pending := rfl
@[simp] theorem storeEntry_inReset (n : Fin 16) (e : PolicyEntry) (s : State) : (storeEntry n e s).inReset = s.inReset := rfl
@[simp] theorem storeEntry_slots (n : Fin 16) (e : PolicyEntry) (s : State) : (storeEntry n e s).slots = s.slots := rfl
@[simp] theorem storeEntry_times (n : Fin 16) (e : PolicyEntry) (s : State) : (storeEntry n e s).times = s.times := rfl
@[simp] theorem storeEntry_engine (n : Fin 16) (e : PolicyEntry) (s : State) : (storeEntry n e s).engine = s.engine := rfl
@[simp] theorem storeEntry_keys (n : Fin 16) (e : PolicyEntry) (s : State) : (storeEntry n e s).keys = s.keys := rfl
@[simp] theorem storeEntry_arbiter (n : Fin 16) (e : PolicyEntry) (s : State) : (storeEntry n e s).arbiter = s.arbiter := rfl
@[simp] theorem storeEntry_monitor (n : Fin 16) (e : PolicyEntry) (s : State) : (storeEntry n e s).monitor = s.monitor := rfl
@[simp] theorem storeEntry_sets (n : Fin 16) (e : PolicyEntry) (s : State) : (storeEntry n e s).sets = s.sets := rfl
@[simp] theorem storeEntry_planner (n : Fin 16) (e : PolicyEntry) (s : State) : (storeEntry n e s).planner = s.planner := rfl
@[simp] theorem storeEntry_sequencer (n : Fin 16) (e : PolicyEntry) (s : State) : (storeEntry n e s).sequencer = s.sequencer := rfl
@[simp] theorem storeEntry_recorder (n : Fin 16) (e : PolicyEntry) (s : State) : (storeEntry n e s).recorder = s.recorder := rfl
@[simp] theorem storeEntry_link (n : Fin 16) (e : PolicyEntry) (s : State) : (storeEntry n e s).link = s.link := rfl
@[simp] theorem slot_storeEntry (n : Fin 16) (e : PolicyEntry) (s : State) (i : SlotId) :
    (storeEntry n e s).slot i = s.slot i := rfl

/-! ### A trigger presented -/

@[simp] theorem presentTrigger_pending (x : Trigger) (s : State) : (presentTrigger x s).pending = s.pending := rfl
@[simp] theorem presentTrigger_inReset (x : Trigger) (s : State) : (presentTrigger x s).inReset = s.inReset := rfl
@[simp] theorem presentTrigger_slots (x : Trigger) (s : State) : (presentTrigger x s).slots = s.slots := rfl
@[simp] theorem presentTrigger_times (x : Trigger) (s : State) : (presentTrigger x s).times = s.times := rfl
@[simp] theorem presentTrigger_engine (x : Trigger) (s : State) : (presentTrigger x s).engine = s.engine := rfl
@[simp] theorem presentTrigger_policy (x : Trigger) (s : State) : (presentTrigger x s).policy = s.policy := rfl
@[simp] theorem presentTrigger_keys (x : Trigger) (s : State) : (presentTrigger x s).keys = s.keys := rfl
@[simp] theorem presentTrigger_arbiter (x : Trigger) (s : State) : (presentTrigger x s).arbiter = s.arbiter := rfl
@[simp] theorem presentTrigger_monitor (x : Trigger) (s : State) : (presentTrigger x s).monitor = s.monitor := rfl
@[simp] theorem presentTrigger_sets (x : Trigger) (s : State) : (presentTrigger x s).sets = s.sets := rfl
@[simp] theorem presentTrigger_planner (x : Trigger) (s : State) : (presentTrigger x s).planner = s.planner := rfl
@[simp] theorem presentTrigger_sequencer (x : Trigger) (s : State) : (presentTrigger x s).sequencer = s.sequencer := rfl
@[simp] theorem presentTrigger_link (x : Trigger) (s : State) : (presentTrigger x s).link = s.link := rfl
@[simp] theorem slot_presentTrigger (x : Trigger) (s : State) (i : SlotId) : (presentTrigger x s).slot i = s.slot i := rfl

/-! ### A pattern bit set -/

@[simp] theorem setPattern_pending (j : SlotId) (s : State) : (setPattern j s).pending = s.pending := rfl
@[simp] theorem setPattern_inReset (j : SlotId) (s : State) : (setPattern j s).inReset = s.inReset := rfl
@[simp] theorem setPattern_slots (j : SlotId) (s : State) : (setPattern j s).slots = s.slots := rfl
@[simp] theorem setPattern_times (j : SlotId) (s : State) : (setPattern j s).times = s.times := rfl
@[simp] theorem setPattern_engine (j : SlotId) (s : State) : (setPattern j s).engine = s.engine := rfl
@[simp] theorem setPattern_policy (j : SlotId) (s : State) : (setPattern j s).policy = s.policy := rfl
@[simp] theorem setPattern_keys (j : SlotId) (s : State) : (setPattern j s).keys = s.keys := rfl
@[simp] theorem setPattern_arbiter (j : SlotId) (s : State) : (setPattern j s).arbiter = s.arbiter := rfl
@[simp] theorem setPattern_monitor (j : SlotId) (s : State) : (setPattern j s).monitor = s.monitor := rfl
@[simp] theorem setPattern_sets (j : SlotId) (s : State) : (setPattern j s).sets = s.sets := rfl
@[simp] theorem setPattern_planner (j : SlotId) (s : State) : (setPattern j s).planner = s.planner := rfl
@[simp] theorem setPattern_sequencer (j : SlotId) (s : State) : (setPattern j s).sequencer = s.sequencer := rfl
@[simp] theorem setPattern_link (j : SlotId) (s : State) : (setPattern j s).link = s.link := rfl
@[simp] theorem slot_setPattern (j : SlotId) (s : State) (i : SlotId) : (setPattern j s).slot i = s.slot i := rfl

/-! ### A slot out of the power queue -/

@[simp] theorem leavePowerQueue_pending (i : SlotId) (s : State) : (leavePowerQueue i s).pending = s.pending := rfl
@[simp] theorem leavePowerQueue_inReset (i : SlotId) (s : State) : (leavePowerQueue i s).inReset = s.inReset := rfl
@[simp] theorem leavePowerQueue_slots (i : SlotId) (s : State) : (leavePowerQueue i s).slots = s.slots := rfl
@[simp] theorem leavePowerQueue_times (i : SlotId) (s : State) : (leavePowerQueue i s).times = s.times := rfl
@[simp] theorem leavePowerQueue_engine (i : SlotId) (s : State) : (leavePowerQueue i s).engine = s.engine := rfl
@[simp] theorem leavePowerQueue_policy (i : SlotId) (s : State) : (leavePowerQueue i s).policy = s.policy := rfl
@[simp] theorem leavePowerQueue_keys (i : SlotId) (s : State) : (leavePowerQueue i s).keys = s.keys := rfl
@[simp] theorem leavePowerQueue_monitor (i : SlotId) (s : State) : (leavePowerQueue i s).monitor = s.monitor := rfl
@[simp] theorem leavePowerQueue_sets (i : SlotId) (s : State) : (leavePowerQueue i s).sets = s.sets := rfl
@[simp] theorem leavePowerQueue_planner (i : SlotId) (s : State) : (leavePowerQueue i s).planner = s.planner := rfl
@[simp] theorem leavePowerQueue_sequencer (i : SlotId) (s : State) : (leavePowerQueue i s).sequencer = s.sequencer := rfl
@[simp] theorem leavePowerQueue_recorder (i : SlotId) (s : State) : (leavePowerQueue i s).recorder = s.recorder := rfl
@[simp] theorem leavePowerQueue_link (i : SlotId) (s : State) : (leavePowerQueue i s).link = s.link := rfl
@[simp] theorem slot_leavePowerQueue (i : SlotId) (s : State) (j : SlotId) : (leavePowerQueue i s).slot j = s.slot j := rfl

/-! ### A slot out of the room queue -/

@[simp] theorem leaveRoom_pending (i : SlotId) (s : State) : (leaveRoom i s).pending = s.pending := rfl
@[simp] theorem leaveRoom_inReset (i : SlotId) (s : State) : (leaveRoom i s).inReset = s.inReset := rfl
@[simp] theorem leaveRoom_slots (i : SlotId) (s : State) : (leaveRoom i s).slots = s.slots := rfl
@[simp] theorem leaveRoom_times (i : SlotId) (s : State) : (leaveRoom i s).times = s.times := rfl
@[simp] theorem leaveRoom_engine (i : SlotId) (s : State) : (leaveRoom i s).engine = s.engine := rfl
@[simp] theorem leaveRoom_policy (i : SlotId) (s : State) : (leaveRoom i s).policy = s.policy := rfl
@[simp] theorem leaveRoom_keys (i : SlotId) (s : State) : (leaveRoom i s).keys = s.keys := rfl
@[simp] theorem leaveRoom_arbiter (i : SlotId) (s : State) : (leaveRoom i s).arbiter = s.arbiter := rfl
@[simp] theorem leaveRoom_monitor (i : SlotId) (s : State) : (leaveRoom i s).monitor = s.monitor := rfl
@[simp] theorem leaveRoom_sets (i : SlotId) (s : State) : (leaveRoom i s).sets = s.sets := rfl
@[simp] theorem leaveRoom_sequencer (i : SlotId) (s : State) : (leaveRoom i s).sequencer = s.sequencer := rfl
@[simp] theorem leaveRoom_recorder (i : SlotId) (s : State) : (leaveRoom i s).recorder = s.recorder := rfl
@[simp] theorem leaveRoom_link (i : SlotId) (s : State) : (leaveRoom i s).link = s.link := rfl
@[simp] theorem slot_leaveRoom (i : SlotId) (s : State) (j : SlotId) : (leaveRoom i s).slot j = s.slot j := rfl

/-! ### A window out of the pending plan -/

@[simp] theorem withdrawWindow_pending (i : SlotId) (s : State) : (withdrawWindow i s).pending = s.pending := rfl
@[simp] theorem withdrawWindow_inReset (i : SlotId) (s : State) : (withdrawWindow i s).inReset = s.inReset := rfl
@[simp] theorem withdrawWindow_slots (i : SlotId) (s : State) : (withdrawWindow i s).slots = s.slots := rfl
@[simp] theorem withdrawWindow_times (i : SlotId) (s : State) : (withdrawWindow i s).times = s.times := rfl
@[simp] theorem withdrawWindow_engine (i : SlotId) (s : State) : (withdrawWindow i s).engine = s.engine := rfl
@[simp] theorem withdrawWindow_policy (i : SlotId) (s : State) : (withdrawWindow i s).policy = s.policy := rfl
@[simp] theorem withdrawWindow_keys (i : SlotId) (s : State) : (withdrawWindow i s).keys = s.keys := rfl
@[simp] theorem withdrawWindow_arbiter (i : SlotId) (s : State) : (withdrawWindow i s).arbiter = s.arbiter := rfl
@[simp] theorem withdrawWindow_monitor (i : SlotId) (s : State) : (withdrawWindow i s).monitor = s.monitor := rfl
@[simp] theorem withdrawWindow_sets (i : SlotId) (s : State) : (withdrawWindow i s).sets = s.sets := rfl
@[simp] theorem withdrawWindow_sequencer (i : SlotId) (s : State) : (withdrawWindow i s).sequencer = s.sequencer := rfl
@[simp] theorem withdrawWindow_recorder (i : SlotId) (s : State) : (withdrawWindow i s).recorder = s.recorder := rfl
@[simp] theorem withdrawWindow_link (i : SlotId) (s : State) : (withdrawWindow i s).link = s.link := rfl
@[simp] theorem slot_withdrawWindow (i : SlotId) (s : State) (j : SlotId) : (withdrawWindow i s).slot j = s.slot j := rfl

/-! ### A window muted -/

@[simp] theorem muteWindow_pending (i : SlotId) (s : State) : (muteWindow i s).pending = s.pending := rfl
@[simp] theorem muteWindow_inReset (i : SlotId) (s : State) : (muteWindow i s).inReset = s.inReset := rfl
@[simp] theorem muteWindow_slots (i : SlotId) (s : State) : (muteWindow i s).slots = s.slots := rfl
@[simp] theorem muteWindow_times (i : SlotId) (s : State) : (muteWindow i s).times = s.times := rfl
@[simp] theorem muteWindow_engine (i : SlotId) (s : State) : (muteWindow i s).engine = s.engine := rfl
@[simp] theorem muteWindow_policy (i : SlotId) (s : State) : (muteWindow i s).policy = s.policy := rfl
@[simp] theorem muteWindow_keys (i : SlotId) (s : State) : (muteWindow i s).keys = s.keys := rfl
@[simp] theorem muteWindow_arbiter (i : SlotId) (s : State) : (muteWindow i s).arbiter = s.arbiter := rfl
@[simp] theorem muteWindow_monitor (i : SlotId) (s : State) : (muteWindow i s).monitor = s.monitor := rfl
@[simp] theorem muteWindow_sets (i : SlotId) (s : State) : (muteWindow i s).sets = s.sets := rfl
@[simp] theorem muteWindow_planner (i : SlotId) (s : State) : (muteWindow i s).planner = s.planner := rfl
@[simp] theorem muteWindow_recorder (i : SlotId) (s : State) : (muteWindow i s).recorder = s.recorder := rfl
@[simp] theorem muteWindow_link (i : SlotId) (s : State) : (muteWindow i s).link = s.link := rfl
@[simp] theorem slot_muteWindow (i : SlotId) (s : State) (j : SlotId) : (muteWindow i s).slot j = s.slot j := rfl

/-! ### A completion sent -/

@[simp] theorem sendCompletion_pending (i : SlotId) (c : Completion) (s : State) : (sendCompletion i c s).pending = s.pending := rfl
@[simp] theorem sendCompletion_inReset (i : SlotId) (c : Completion) (s : State) : (sendCompletion i c s).inReset = s.inReset := rfl
@[simp] theorem sendCompletion_times (i : SlotId) (c : Completion) (s : State) : (sendCompletion i c s).times = s.times := rfl
@[simp] theorem sendCompletion_engine (i : SlotId) (c : Completion) (s : State) : (sendCompletion i c s).engine = s.engine := rfl
@[simp] theorem sendCompletion_policy (i : SlotId) (c : Completion) (s : State) : (sendCompletion i c s).policy = s.policy := rfl
@[simp] theorem sendCompletion_keys (i : SlotId) (c : Completion) (s : State) : (sendCompletion i c s).keys = s.keys := rfl
@[simp] theorem sendCompletion_arbiter (i : SlotId) (c : Completion) (s : State) : (sendCompletion i c s).arbiter = s.arbiter := rfl
@[simp] theorem sendCompletion_monitor (i : SlotId) (c : Completion) (s : State) : (sendCompletion i c s).monitor = s.monitor := rfl
@[simp] theorem sendCompletion_sets (i : SlotId) (c : Completion) (s : State) : (sendCompletion i c s).sets = s.sets := rfl
@[simp] theorem sendCompletion_planner (i : SlotId) (c : Completion) (s : State) : (sendCompletion i c s).planner = s.planner := rfl
@[simp] theorem sendCompletion_sequencer (i : SlotId) (c : Completion) (s : State) : (sendCompletion i c s).sequencer = s.sequencer := rfl
@[simp] theorem sendCompletion_recorder (i : SlotId) (c : Completion) (s : State) : (sendCompletion i c s).recorder = s.recorder := rfl
@[simp] theorem sendCompletion_link (i : SlotId) (c : Completion) (s : State) : (sendCompletion i c s).link = s.link := rfl

/-! ### Checks dropped -/

@[simp] theorem dropChecks_pending (i : SlotId) (s : State) : (dropChecks i s).pending = s.pending := rfl
@[simp] theorem dropChecks_inReset (i : SlotId) (s : State) : (dropChecks i s).inReset = s.inReset := rfl
@[simp] theorem dropChecks_times (i : SlotId) (s : State) : (dropChecks i s).times = s.times := rfl
@[simp] theorem dropChecks_engine (i : SlotId) (s : State) : (dropChecks i s).engine = s.engine := rfl
@[simp] theorem dropChecks_policy (i : SlotId) (s : State) : (dropChecks i s).policy = s.policy := rfl
@[simp] theorem dropChecks_keys (i : SlotId) (s : State) : (dropChecks i s).keys = s.keys := rfl
@[simp] theorem dropChecks_arbiter (i : SlotId) (s : State) : (dropChecks i s).arbiter = s.arbiter := rfl
@[simp] theorem dropChecks_monitor (i : SlotId) (s : State) : (dropChecks i s).monitor = s.monitor := rfl
@[simp] theorem dropChecks_sets (i : SlotId) (s : State) : (dropChecks i s).sets = s.sets := rfl
@[simp] theorem dropChecks_planner (i : SlotId) (s : State) : (dropChecks i s).planner = s.planner := rfl
@[simp] theorem dropChecks_sequencer (i : SlotId) (s : State) : (dropChecks i s).sequencer = s.sequencer := rfl
@[simp] theorem dropChecks_recorder (i : SlotId) (s : State) : (dropChecks i s).recorder = s.recorder := rfl
@[simp] theorem dropChecks_link (i : SlotId) (s : State) : (dropChecks i s).link = s.link := rfl

end Sys2Proof.Machine
end

