-- ==== Sys2Proof/Laws/Ops.lean ====
section
/-!
SUPPORT. What each shared operation leaves alone, field by field, and what it makes of the slots: the lemmas that later
proofs cite in place of unfolding the operation.
-/
namespace Sys2Proof.Machine

/-! ### The slot transition -/

@[simp] theorem reportGate_pending (i : SlotId) (old new : SlotState) (s : State) :
    (reportGate i old new s).pending = s.pending := by unfold reportGate; split <;> rfl
@[simp] theorem reportGate_inReset (i : SlotId) (old new : SlotState) (s : State) :
    (reportGate i old new s).inReset = s.inReset := by unfold reportGate; split <;> rfl
@[simp] theorem reportGate_slots (i : SlotId) (old new : SlotState) (s : State) :
    (reportGate i old new s).slots = s.slots := by unfold reportGate; split <;> rfl
@[simp] theorem reportGate_times (i : SlotId) (old new : SlotState) (s : State) :
    (reportGate i old new s).times = s.times := by unfold reportGate; split <;> rfl
@[simp] theorem reportGate_engine (i : SlotId) (old new : SlotState) (s : State) :
    (reportGate i old new s).engine = s.engine := by unfold reportGate; split <;> rfl
@[simp] theorem reportGate_policy (i : SlotId) (old new : SlotState) (s : State) :
    (reportGate i old new s).policy = s.policy := by unfold reportGate; split <;> rfl
@[simp] theorem reportGate_keys (i : SlotId) (old new : SlotState) (s : State) :
    (reportGate i old new s).keys = s.keys := by unfold reportGate; split <;> rfl
@[simp] theorem reportGate_arbiter (i : SlotId) (old new : SlotState) (s : State) :
    (reportGate i old new s).arbiter = s.arbiter := by unfold reportGate; split <;> rfl
@[simp] theorem reportGate_monitor (i : SlotId) (old new : SlotState) (s : State) :
    (reportGate i old new s).monitor = s.monitor := by unfold reportGate; split <;> rfl
@[simp] theorem reportGate_sets (i : SlotId) (old new : SlotState) (s : State) :
    (reportGate i old new s).sets = s.sets := by unfold reportGate; split <;> rfl
@[simp] theorem reportGate_planner (i : SlotId) (old new : SlotState) (s : State) :
    (reportGate i old new s).planner = s.planner := by unfold reportGate; split <;> rfl
@[simp] theorem reportGate_sequencer (i : SlotId) (old new : SlotState) (s : State) :
    (reportGate i old new s).sequencer = s.sequencer := by unfold reportGate; split <;> rfl
@[simp] theorem reportGate_link (i : SlotId) (old new : SlotState) (s : State) :
    (reportGate i old new s).link = s.link := by unfold reportGate; split <;> rfl

@[simp] theorem slot_reportGate (i : SlotId) (old new : SlotState) (s : State) (j : SlotId) :
    (reportGate i old new s).slot j = s.slot j := by unfold reportGate; split <;> rfl
/-- A gate report joins the list exactly when the bring-up group is entered or left. -/
theorem reportGate_gateReports (i : SlotId) (old new : SlotState) (s : State) :
    (reportGate i old new s).recorder.gateReports = s.recorder.gateReports ++
      if old.inBringUp = new.inBringUp then [] else [{ slot := i, entering := new.inBringUp }] := by
  unfold reportGate; split <;> simp_all
/-- A transition touches the recorder in its gate reports alone. -/
theorem reportGate_recorder (i : SlotId) (old new : SlotState) (s : State) :
    { (reportGate i old new s).recorder with gateReports := s.recorder.gateReports } = s.recorder := by
  unfold reportGate; split <;> rfl

/-! ### The slot transition -/

@[simp] theorem transition_pending (i : SlotId) (st : SlotState) (r : Reason) (s : State) :
    (transition i st r s).pending = s.pending := by simp [transition]
@[simp] theorem transition_inReset (i : SlotId) (st : SlotState) (r : Reason) (s : State) :
    (transition i st r s).inReset = s.inReset := by simp [transition]
@[simp] theorem transition_times (i : SlotId) (st : SlotState) (r : Reason) (s : State) :
    (transition i st r s).times = s.times := by simp [transition]
@[simp] theorem transition_engine (i : SlotId) (st : SlotState) (r : Reason) (s : State) :
    (transition i st r s).engine = s.engine := by simp [transition]
@[simp] theorem transition_policy (i : SlotId) (st : SlotState) (r : Reason) (s : State) :
    (transition i st r s).policy = s.policy := by simp [transition]
@[simp] theorem transition_keys (i : SlotId) (st : SlotState) (r : Reason) (s : State) :
    (transition i st r s).keys = s.keys := by simp [transition]
@[simp] theorem transition_arbiter (i : SlotId) (st : SlotState) (r : Reason) (s : State) :
    (transition i st r s).arbiter = s.arbiter := by simp [transition]
@[simp] theorem transition_monitor (i : SlotId) (st : SlotState) (r : Reason) (s : State) :
    (transition i st r s).monitor = s.monitor := by simp [transition]
@[simp] theorem transition_sets (i : SlotId) (st : SlotState) (r : Reason) (s : State) :
    (transition i st r s).sets = s.sets := by simp [transition]
@[simp] theorem transition_planner (i : SlotId) (st : SlotState) (r : Reason) (s : State) :
    (transition i st r s).planner = s.planner := by simp [transition]
@[simp] theorem transition_sequencer (i : SlotId) (st : SlotState) (r : Reason) (s : State) :
    (transition i st r s).sequencer = s.sequencer := by simp [transition]

/-- A transition enters the slot's record into its new state. -/
@[simp] theorem slot_transition_self (i : SlotId) (st : SlotState) (r : Reason) (s : State) :
    (transition i st r s).slot i = (s.slot i).enter st r := by simp [transition]
@[simp] theorem slot_transition_ne (i : SlotId) (st : SlotState) (r : Reason) (s : State) {j : SlotId} (h : j ≠ i) :
    (transition i st r s).slot j = s.slot j := by simp [transition, h]
@[simp] theorem transition_replies (i : SlotId) (st : SlotState) (r : Reason) (s : State) :
    (transition i st r s).link.replies = s.link.replies := by simp [transition]
theorem transition_gateReports (i : SlotId) (st : SlotState) (r : Reason) (s : State) :
    (transition i st r s).recorder.gateReports = s.recorder.gateReports ++
      if (s.slot i).state.inBringUp = st.inBringUp then [] else [{ slot := i, entering := st.inBringUp }] := by
  simp [transition, reportGate_gateReports]
theorem transition_recorder (i : SlotId) (st : SlotState) (r : Reason) (s : State) :
    { (transition i st r s).recorder with gateReports := s.recorder.gateReports } = s.recorder := by
  simpa [transition] using reportGate_recorder i (s.slot i).state st (s.updSlot i fun c => c.enter st r)
/-- A transition touches the port in its notices alone. -/
theorem transition_link (i : SlotId) (st : SlotState) (r : Reason) (s : State) :
    { (transition i st r s).link with notices := s.link.notices } = s.link := by
  simp only [transition, postSlot, postNotice, reportGate_link, updSlot_link]

@[simp] theorem writeReason_replies (i : SlotId) (r : Reason) (s : State) :
    (writeReason i r s).link.replies = s.link.replies := rfl
@[simp] theorem slot_writeReason_self (i : SlotId) (r : Reason) (s : State) :
    (writeReason i r s).slot i = { s.slot i with reason := r } := by simp [writeReason]
@[simp] theorem slot_writeReason_ne (i : SlotId) (r : Reason) (s : State) {j : SlotId} (h : j ≠ i) :
    (writeReason i r s).slot j = s.slot j := by simp [writeReason, h]

/-! ### A change of reason -/

@[simp] theorem writeReason_pending (i : SlotId) (r : Reason) (s : State) :
    (writeReason i r s).pending = s.pending := by rfl
@[simp] theorem writeReason_inReset (i : SlotId) (r : Reason) (s : State) :
    (writeReason i r s).inReset = s.inReset := by rfl
@[simp] theorem writeReason_times (i : SlotId) (r : Reason) (s : State) :
    (writeReason i r s).times = s.times := by rfl
@[simp] theorem writeReason_engine (i : SlotId) (r : Reason) (s : State) :
    (writeReason i r s).engine = s.engine := by rfl
@[simp] theorem writeReason_policy (i : SlotId) (r : Reason) (s : State) :
    (writeReason i r s).policy = s.policy := by rfl
@[simp] theorem writeReason_keys (i : SlotId) (r : Reason) (s : State) :
    (writeReason i r s).keys = s.keys := by rfl
@[simp] theorem writeReason_arbiter (i : SlotId) (r : Reason) (s : State) :
    (writeReason i r s).arbiter = s.arbiter := by rfl
@[simp] theorem writeReason_monitor (i : SlotId) (r : Reason) (s : State) :
    (writeReason i r s).monitor = s.monitor := by rfl
@[simp] theorem writeReason_sets (i : SlotId) (r : Reason) (s : State) :
    (writeReason i r s).sets = s.sets := by rfl
@[simp] theorem writeReason_planner (i : SlotId) (r : Reason) (s : State) :
    (writeReason i r s).planner = s.planner := by rfl
@[simp] theorem writeReason_sequencer (i : SlotId) (r : Reason) (s : State) :
    (writeReason i r s).sequencer = s.sequencer := by rfl
@[simp] theorem writeReason_recorder (i : SlotId) (r : Reason) (s : State) :
    (writeReason i r s).recorder = s.recorder := by rfl

/-! ### The engine takes a job -/

@[simp] theorem startJob_pending (s : State) :
    (startJob s).pending = s.pending := by unfold startJob; split <;> rfl
@[simp] theorem startJob_inReset (s : State) :
    (startJob s).inReset = s.inReset := by unfold startJob; split <;> rfl
@[simp] theorem startJob_slots (s : State) :
    (startJob s).slots = s.slots := by unfold startJob; split <;> rfl
@[simp] theorem startJob_times (s : State) :
    (startJob s).times = s.times := by unfold startJob; split <;> rfl
@[simp] theorem startJob_policy (s : State) :
    (startJob s).policy = s.policy := by unfold startJob; split <;> rfl
@[simp] theorem startJob_keys (s : State) :
    (startJob s).keys = s.keys := by unfold startJob; split <;> rfl
@[simp] theorem startJob_arbiter (s : State) :
    (startJob s).arbiter = s.arbiter := by unfold startJob; split <;> rfl
@[simp] theorem startJob_monitor (s : State) :
    (startJob s).monitor = s.monitor := by unfold startJob; split <;> rfl
@[simp] theorem startJob_sets (s : State) :
    (startJob s).sets = s.sets := by unfold startJob; split <;> rfl
@[simp] theorem startJob_planner (s : State) :
    (startJob s).planner = s.planner := by unfold startJob; split <;> rfl
@[simp] theorem startJob_sequencer (s : State) :
    (startJob s).sequencer = s.sequencer := by unfold startJob; split <;> rfl
@[simp] theorem startJob_recorder (s : State) :
    (startJob s).recorder = s.recorder := by unfold startJob; split <;> rfl
@[simp] theorem startJob_link (s : State) :
    (startJob s).link = s.link := by unfold startJob; split <;> rfl

@[simp] theorem slot_startJob (s : State) (j : SlotId) : (startJob s).slot j = s.slot j := by
  simp [State.slot]

/-! ### A job issued -/

@[simp] theorem issueJob_pending (i : SlotId) (t : Transaction) (s : State) :
    (issueJob i t s).pending = s.pending := by unfold issueJob; split <;> simp
@[simp] theorem issueJob_inReset (i : SlotId) (t : Transaction) (s : State) :
    (issueJob i t s).inReset = s.inReset := by unfold issueJob; split <;> simp
@[simp] theorem issueJob_slots (i : SlotId) (t : Transaction) (s : State) :
    (issueJob i t s).slots = s.slots := by unfold issueJob; split <;> simp
@[simp] theorem issueJob_times (i : SlotId) (t : Transaction) (s : State) :
    (issueJob i t s).times = s.times := by unfold issueJob; split <;> simp
@[simp] theorem issueJob_policy (i : SlotId) (t : Transaction) (s : State) :
    (issueJob i t s).policy = s.policy := by unfold issueJob; split <;> simp
@[simp] theorem issueJob_keys (i : SlotId) (t : Transaction) (s : State) :
    (issueJob i t s).keys = s.keys := by unfold issueJob; split <;> simp
@[simp] theorem issueJob_arbiter (i : SlotId) (t : Transaction) (s : State) :
    (issueJob i t s).arbiter = s.arbiter := by unfold issueJob; split <;> simp
@[simp] theorem issueJob_monitor (i : SlotId) (t : Transaction) (s : State) :
    (issueJob i t s).monitor = s.monitor := by unfold issueJob; split <;> simp
@[simp] theorem issueJob_sets (i : SlotId) (t : Transaction) (s : State) :
    (issueJob i t s).sets = s.sets := by unfold issueJob; split <;> simp
@[simp] theorem issueJob_planner (i : SlotId) (t : Transaction) (s : State) :
    (issueJob i t s).planner = s.planner := by unfold issueJob; split <;> simp
@[simp] theorem issueJob_sequencer (i : SlotId) (t : Transaction) (s : State) :
    (issueJob i t s).sequencer = s.sequencer := by unfold issueJob; split <;> simp
@[simp] theorem issueJob_recorder (i : SlotId) (t : Transaction) (s : State) :
    (issueJob i t s).recorder = s.recorder := by unfold issueJob; split <;> simp
@[simp] theorem issueJob_link (i : SlotId) (t : Transaction) (s : State) :
    (issueJob i t s).link = s.link := by unfold issueJob; split <;> simp

@[simp] theorem slot_issueJob (i : SlotId) (t : Transaction) (s : State) (j : SlotId) :
    (issueJob i t s).slot j = s.slot j := by simp [State.slot]

/-! ### A job ended -/

@[simp] theorem endJob_pending (cur : CurrentJob) (o : JobOutcome) (d : List Byte) (n : Nat) (k : Option Nat) (s : State) :
    (endJob cur o d n k s).pending = s.pending := by simp [endJob]
@[simp] theorem endJob_inReset (cur : CurrentJob) (o : JobOutcome) (d : List Byte) (n : Nat) (k : Option Nat) (s : State) :
    (endJob cur o d n k s).inReset = s.inReset := by simp [endJob]
@[simp] theorem endJob_times (cur : CurrentJob) (o : JobOutcome) (d : List Byte) (n : Nat) (k : Option Nat) (s : State) :
    (endJob cur o d n k s).times = s.times := by simp [endJob]
@[simp] theorem endJob_policy (cur : CurrentJob) (o : JobOutcome) (d : List Byte) (n : Nat) (k : Option Nat) (s : State) :
    (endJob cur o d n k s).policy = s.policy := by simp [endJob]
@[simp] theorem endJob_keys (cur : CurrentJob) (o : JobOutcome) (d : List Byte) (n : Nat) (k : Option Nat) (s : State) :
    (endJob cur o d n k s).keys = s.keys := by simp [endJob]
@[simp] theorem endJob_arbiter (cur : CurrentJob) (o : JobOutcome) (d : List Byte) (n : Nat) (k : Option Nat) (s : State) :
    (endJob cur o d n k s).arbiter = s.arbiter := by simp [endJob]
@[simp] theorem endJob_monitor (cur : CurrentJob) (o : JobOutcome) (d : List Byte) (n : Nat) (k : Option Nat) (s : State) :
    (endJob cur o d n k s).monitor = s.monitor := by simp [endJob]
@[simp] theorem endJob_sets (cur : CurrentJob) (o : JobOutcome) (d : List Byte) (n : Nat) (k : Option Nat) (s : State) :
    (endJob cur o d n k s).sets = s.sets := by simp [endJob]
@[simp] theorem endJob_planner (cur : CurrentJob) (o : JobOutcome) (d : List Byte) (n : Nat) (k : Option Nat) (s : State) :
    (endJob cur o d n k s).planner = s.planner := by simp [endJob]
@[simp] theorem endJob_sequencer (cur : CurrentJob) (o : JobOutcome) (d : List Byte) (n : Nat) (k : Option Nat) (s : State) :
    (endJob cur o d n k s).sequencer = s.sequencer := by simp [endJob]
@[simp] theorem endJob_recorder (cur : CurrentJob) (o : JobOutcome) (d : List Byte) (n : Nat) (k : Option Nat) (s : State) :
    (endJob cur o d n k s).recorder = s.recorder := by simp [endJob]
@[simp] theorem endJob_link (cur : CurrentJob) (o : JobOutcome) (d : List Byte) (n : Nat) (k : Option Nat) (s : State) :
    (endJob cur o d n k s).link = s.link := by simp [endJob]

@[simp] theorem slot_endJob_ne (cur : CurrentJob) (o : JobOutcome) (d : List Byte) (n : Nat) (k : Option Nat) (s : State)
    {j : SlotId} (h : j ≠ cur.job.slot) : (endJob cur o d n k s).slot j = s.slot j := by
  simp only [endJob, slot_startJob]
  exact slot_of_set (s := s) rfl h

/-! ### A job aborted -/

@[simp] theorem requestAbort_job (cur : CurrentJob) (sets : Vector ParamSet 8) :
    (cur.requestAbort sets).job = cur.job := by unfold CurrentJob.requestAbort; split <;> rfl
@[simp] theorem requestAbort_held (cur : CurrentJob) (sets : Vector ParamSet 8) :
    (cur.requestAbort sets).held = cur.held := by unfold CurrentJob.requestAbort; split <;> rfl
@[simp] theorem requestAbort_nextByte (cur : CurrentJob) (sets : Vector ParamSet 8) :
    (cur.requestAbort sets).nextByte = cur.nextByte := by unfold CurrentJob.requestAbort; split <;> rfl
@[simp] theorem requestAbort_received (cur : CurrentJob) (sets : Vector ParamSet 8) :
    (cur.requestAbort sets).received = cur.received := by unfold CurrentJob.requestAbort; split <;> rfl
@[simp] theorem requestAbort_abort (cur : CurrentJob) (sets : Vector ParamSet 8) :
    (cur.requestAbort sets).abort = true := by unfold CurrentJob.requestAbort; split <;> simp_all

/-- The request changes no byte that the engine sends, and after it the sets change none (02 R37, R44). -/
theorem requestAbort_sends (cur : CurrentJob) (sets later : Vector ParamSet 8) :
    (cur.requestAbort sets).sends later = cur.sends sets := by
  unfold CurrentJob.requestAbort CurrentJob.sends
  cases h : cur.abort <;> simp [h]

/-- A second request has no further effect (02 R44). -/
@[simp] theorem requestAbort_again (cur : CurrentJob) (sets later : Vector ParamSet 8) :
    (cur.requestAbort sets).requestAbort later = cur.requestAbort sets :=
  if_pos (requestAbort_abort cur sets)

@[simp] theorem abortJob_pending (i : SlotId) (s : State) :
    (abortJob i s).pending = s.pending := by unfold abortJob; split <;> (try split) <;> (try split) <;> simp
@[simp] theorem abortJob_inReset (i : SlotId) (s : State) :
    (abortJob i s).inReset = s.inReset := by unfold abortJob; split <;> (try split) <;> (try split) <;> simp
@[simp] theorem abortJob_times (i : SlotId) (s : State) :
    (abortJob i s).times = s.times := by unfold abortJob; split <;> (try split) <;> (try split) <;> simp
@[simp] theorem abortJob_policy (i : SlotId) (s : State) :
    (abortJob i s).policy = s.policy := by unfold abortJob; split <;> (try split) <;> (try split) <;> simp
@[simp] theorem abortJob_keys (i : SlotId) (s : State) :
    (abortJob i s).keys = s.keys := by unfold abortJob; split <;> (try split) <;> (try split) <;> simp
@[simp] theorem abortJob_arbiter (i : SlotId) (s : State) :
    (abortJob i s).arbiter = s.arbiter := by unfold abortJob; split <;> (try split) <;> (try split) <;> simp
@[simp] theorem abortJob_monitor (i : SlotId) (s : State) :
    (abortJob i s).monitor = s.monitor := by unfold abortJob; split <;> (try split) <;> (try split) <;> simp
@[simp] theorem abortJob_sets (i : SlotId) (s : State) :
    (abortJob i s).sets = s.sets := by unfold abortJob; split <;> (try split) <;> (try split) <;> simp
@[simp] theorem abortJob_planner (i : SlotId) (s : State) :
    (abortJob i s).planner = s.planner := by unfold abortJob; split <;> (try split) <;> (try split) <;> simp
@[simp] theorem abortJob_sequencer (i : SlotId) (s : State) :
    (abortJob i s).sequencer = s.sequencer := by unfold abortJob; split <;> (try split) <;> (try split) <;> simp
@[simp] theorem abortJob_recorder (i : SlotId) (s : State) :
    (abortJob i s).recorder = s.recorder := by unfold abortJob; split <;> (try split) <;> (try split) <;> simp
@[simp] theorem abortJob_link (i : SlotId) (s : State) :
    (abortJob i s).link = s.link := by unfold abortJob; split <;> (try split) <;> (try split) <;> simp

@[simp] theorem slot_abortJob_ne (i : SlotId) (s : State) {j : SlotId} (h : j ≠ i) :
    (abortJob i s).slot j = s.slot j := by
  unfold abortJob
  split
  · split
    · rename_i cur _ hc
      split
      · exact slot_endJob_ne cur _ _ _ _ s (by rw [hc]; exact h)
      · rfl
    · rfl
  · rfl

/-! ### A slot's jobs withdrawn -/

@[simp] theorem withdrawJob_pending (i : SlotId) (s : State) :
    (withdrawJob i s).pending = s.pending := by simp [withdrawJob]
@[simp] theorem withdrawJob_inReset (i : SlotId) (s : State) :
    (withdrawJob i s).inReset = s.inReset := by simp [withdrawJob]
@[simp] theorem withdrawJob_times (i : SlotId) (s : State) :
    (withdrawJob i s).times = s.times := by simp [withdrawJob]
@[simp] theorem withdrawJob_policy (i : SlotId) (s : State) :
    (withdrawJob i s).policy = s.policy := by simp [withdrawJob]
@[simp] theorem withdrawJob_keys (i : SlotId) (s : State) :
    (withdrawJob i s).keys = s.keys := by simp [withdrawJob]
@[simp] theorem withdrawJob_arbiter (i : SlotId) (s : State) :
    (withdrawJob i s).arbiter = s.arbiter := by simp [withdrawJob]
@[simp] theorem withdrawJob_monitor (i : SlotId) (s : State) :
    (withdrawJob i s).monitor = s.monitor := by simp [withdrawJob]
@[simp] theorem withdrawJob_sets (i : SlotId) (s : State) :
    (withdrawJob i s).sets = s.sets := by simp [withdrawJob]
@[simp] theorem withdrawJob_planner (i : SlotId) (s : State) :
    (withdrawJob i s).planner = s.planner := by simp [withdrawJob]
@[simp] theorem withdrawJob_sequencer (i : SlotId) (s : State) :
    (withdrawJob i s).sequencer = s.sequencer := by simp [withdrawJob]
@[simp] theorem withdrawJob_recorder (i : SlotId) (s : State) :
    (withdrawJob i s).recorder = s.recorder := by simp [withdrawJob]
@[simp] theorem withdrawJob_link (i : SlotId) (s : State) :
    (withdrawJob i s).link = s.link := by simp [withdrawJob]

@[simp] theorem slot_withdrawJob_ne (i : SlotId) (s : State) {j : SlotId} (h : j ≠ i) :
    (withdrawJob i s).slot j = s.slot j := by
  unfold withdrawJob
  rw [slot_abortJob_ne i _ h]
  exact slot_of_set (s := s) rfl h

/-! ### A grant -/

@[simp] theorem grantPower_pending (e : PowerEntry) (rest : List PowerEntry) (s : State) :
    (grantPower e rest s).pending = s.pending := by simp [grantPower]
@[simp] theorem grantPower_inReset (e : PowerEntry) (rest : List PowerEntry) (s : State) :
    (grantPower e rest s).inReset = s.inReset := by simp [grantPower]
@[simp] theorem grantPower_times (e : PowerEntry) (rest : List PowerEntry) (s : State) :
    (grantPower e rest s).times = s.times := by simp [grantPower]
@[simp] theorem grantPower_engine (e : PowerEntry) (rest : List PowerEntry) (s : State) :
    (grantPower e rest s).engine = s.engine := by simp [grantPower]
@[simp] theorem grantPower_policy (e : PowerEntry) (rest : List PowerEntry) (s : State) :
    (grantPower e rest s).policy = s.policy := by simp [grantPower]
@[simp] theorem grantPower_keys (e : PowerEntry) (rest : List PowerEntry) (s : State) :
    (grantPower e rest s).keys = s.keys := by simp [grantPower]
@[simp] theorem grantPower_monitor (e : PowerEntry) (rest : List PowerEntry) (s : State) :
    (grantPower e rest s).monitor = s.monitor := by simp [grantPower]
@[simp] theorem grantPower_sets (e : PowerEntry) (rest : List PowerEntry) (s : State) :
    (grantPower e rest s).sets = s.sets := by simp [grantPower]
@[simp] theorem grantPower_planner (e : PowerEntry) (rest : List PowerEntry) (s : State) :
    (grantPower e rest s).planner = s.planner := by simp [grantPower]
@[simp] theorem grantPower_sequencer (e : PowerEntry) (rest : List PowerEntry) (s : State) :
    (grantPower e rest s).sequencer = s.sequencer := by simp [grantPower]

@[simp] theorem grantPower_replies (e : PowerEntry) (rest : List PowerEntry) (s : State) :
    (grantPower e rest s).link.replies = s.link.replies := by simp [grantPower]
@[simp] theorem slot_grantPower_ne (e : PowerEntry) (rest : List PowerEntry) (s : State) {j : SlotId}
    (h : j ≠ e.slot) : (grantPower e rest s).slot j = s.slot j := by
  simp only [grantPower]
  rw [slot_updSlot_ne _ _ h, slot_transition_ne _ _ _ _ h]
  rfl
@[simp] theorem grantPower_arbiter (e : PowerEntry) (rest : List PowerEntry) (s : State) :
    (grantPower e rest s).arbiter = { s.arbiter with
      committed := s.arbiter.committed + e.power, ramping := s.arbiter.ramping + 1, queue := rest } := by
  simp [grantPower]

/-! ### The examination -/

theorem examineFrom_pending (q : List PowerEntry) : ∀ s : State, (examineFrom q s).pending = s.pending := by
  induction q with
  | nil => intro s; rfl
  | cons e q ih => intro s; unfold examineFrom; split
                   · rw [ih]; simp
                   · rfl
@[simp] theorem examine_pending (s : State) : (examine s).pending = s.pending := examineFrom_pending _ s
theorem examineFrom_inReset (q : List PowerEntry) : ∀ s : State, (examineFrom q s).inReset = s.inReset := by
  induction q with
  | nil => intro s; rfl
  | cons e q ih => intro s; unfold examineFrom; split
                   · rw [ih]; simp
                   · rfl
@[simp] theorem examine_inReset (s : State) : (examine s).inReset = s.inReset := examineFrom_inReset _ s
theorem examineFrom_times (q : List PowerEntry) : ∀ s : State, (examineFrom q s).times = s.times := by
  induction q with
  | nil => intro s; rfl
  | cons e q ih => intro s; unfold examineFrom; split
                   · rw [ih]; simp
                   · rfl
@[simp] theorem examine_times (s : State) : (examine s).times = s.times := examineFrom_times _ s
theorem examineFrom_engine (q : List PowerEntry) : ∀ s : State, (examineFrom q s).engine = s.engine := by
  induction q with
  | nil => intro s; rfl
  | cons e q ih => intro s; unfold examineFrom; split
                   · rw [ih]; simp
                   · rfl
@[simp] theorem examine_engine (s : State) : (examine s).engine = s.engine := examineFrom_engine _ s
theorem examineFrom_policy (q : List PowerEntry) : ∀ s : State, (examineFrom q s).policy = s.policy := by
  induction q with
  | nil => intro s; rfl
  | cons e q ih => intro s; unfold examineFrom; split
                   · rw [ih]; simp
                   · rfl
@[simp] theorem examine_policy (s : State) : (examine s).policy = s.policy := examineFrom_policy _ s
theorem examineFrom_keys (q : List PowerEntry) : ∀ s : State, (examineFrom q s).keys = s.keys := by
  induction q with
  | nil => intro s; rfl
  | cons e q ih => intro s; unfold examineFrom; split
                   · rw [ih]; simp
                   · rfl
@[simp] theorem examine_keys (s : State) : (examine s).keys = s.keys := examineFrom_keys _ s
theorem examineFrom_monitor (q : List PowerEntry) : ∀ s : State, (examineFrom q s).monitor = s.monitor := by
  induction q with
  | nil => intro s; rfl
  | cons e q ih => intro s; unfold examineFrom; split
                   · rw [ih]; simp
                   · rfl
@[simp] theorem examine_monitor (s : State) : (examine s).monitor = s.monitor := examineFrom_monitor _ s
theorem examineFrom_sets (q : List PowerEntry) : ∀ s : State, (examineFrom q s).sets = s.sets := by
  induction q with
  | nil => intro s; rfl
  | cons e q ih => intro s; unfold examineFrom; split
                   · rw [ih]; simp
                   · rfl
@[simp] theorem examine_sets (s : State) : (examine s).sets = s.sets := examineFrom_sets _ s
theorem examineFrom_planner (q : List PowerEntry) : ∀ s : State, (examineFrom q s).planner = s.planner := by
  induction q with
  | nil => intro s; rfl
  | cons e q ih => intro s; unfold examineFrom; split
                   · rw [ih]; simp
                   · rfl
@[simp] theorem examine_planner (s : State) : (examine s).planner = s.planner := examineFrom_planner _ s
theorem examineFrom_sequencer (q : List PowerEntry) : ∀ s : State, (examineFrom q s).sequencer = s.sequencer := by
  induction q with
  | nil => intro s; rfl
  | cons e q ih => intro s; unfold examineFrom; split
                   · rw [ih]; simp
                   · rfl
@[simp] theorem examine_sequencer (s : State) : (examine s).sequencer = s.sequencer := examineFrom_sequencer _ s

theorem examineFrom_replies (q : List PowerEntry) : ∀ s : State, (examineFrom q s).link.replies = s.link.replies := by
  induction q with
  | nil => intro s; rfl
  | cons e q ih => intro s; unfold examineFrom; split
                   · rw [ih]; simp
                   · rfl
@[simp] theorem examine_replies (s : State) : (examine s).link.replies = s.link.replies := examineFrom_replies _ s

/-- An examination reaches only the slots of the power queue. -/
theorem slot_examineFrom (q : List PowerEntry) (j : SlotId) (h : j ∉ q.map PowerEntry.slot) :
    ∀ s : State, (examineFrom q s).slot j = s.slot j := by
  induction q with
  | nil => intro s; rfl
  | cons e q ih =>
    intro s
    simp only [List.map_cons, List.mem_cons, not_or] at h
    unfold examineFrom
    split
    · rw [ih h.2, slot_grantPower_ne _ _ _ h.1]
    · rfl

theorem slot_examine {j : SlotId} (s : State) (h : j ∉ s.arbiter.queue.map PowerEntry.slot) :
    (examine s).slot j = s.slot j := slot_examineFrom _ j h s

/-- What an examination leaves of the queue is its end, and its head cannot be granted; budget and limit stand. -/
theorem examineFrom_arbiter (q : List PowerEntry) : ∀ s : State, s.arbiter.queue = q →
    (examineFrom q s).arbiter.queue <:+ q ∧ (examineFrom q s).arbiter.blocked ∧
      (examineFrom q s).arbiter.budget = s.arbiter.budget ∧
      (examineFrom q s).arbiter.rampLimit = s.arbiter.rampLimit := by
  induction q with
  | nil =>
    intro s hq
    refine ⟨by simp [examineFrom, hq], ?_, rfl, rfl⟩
    intro e rest he
    simp [examineFrom, hq] at he
  | cons e q ih =>
    intro s hq
    unfold examineFrom
    split
    · obtain ⟨h1, h2, h3, h4⟩ := ih (grantPower e q s) (by simp)
      exact ⟨h1.trans (List.suffix_cons e q), h2, by rw [h3]; simp, by rw [h4]; simp⟩
    · rename_i hno
      refine ⟨by simp [hq], ?_, rfl, rfl⟩
      intro e' rest he
      rw [hq] at he
      cases he
      omega

theorem examine_arbiter (s : State) : (examine s).arbiter.queue <:+ s.arbiter.queue ∧ (examine s).arbiter.blocked ∧
    (examine s).arbiter.budget = s.arbiter.budget ∧ (examine s).arbiter.rampLimit = s.arbiter.rampLimit :=
  examineFrom_arbiter _ s rfl

/-- With nothing queued an examination does nothing. -/
theorem examine_empty (s : State) (h : s.arbiter.queue = []) : examine s = s := by simp [examine, h, examineFrom]

/-! ### A grant released -/

@[simp] theorem releaseGrant_pending (i : SlotId) (s : State) :
    (releaseGrant i s).pending = s.pending := by unfold releaseGrant; dsimp only; split <;> rfl
@[simp] theorem releaseGrant_inReset (i : SlotId) (s : State) :
    (releaseGrant i s).inReset = s.inReset := by unfold releaseGrant; dsimp only; split <;> rfl
@[simp] theorem releaseGrant_times (i : SlotId) (s : State) :
    (releaseGrant i s).times = s.times := by unfold releaseGrant; dsimp only; split <;> rfl
@[simp] theorem releaseGrant_engine (i : SlotId) (s : State) :
    (releaseGrant i s).engine = s.engine := by unfold releaseGrant; dsimp only; split <;> rfl
@[simp] theorem releaseGrant_policy (i : SlotId) (s : State) :
    (releaseGrant i s).policy = s.policy := by unfold releaseGrant; dsimp only; split <;> rfl
@[simp] theorem releaseGrant_keys (i : SlotId) (s : State) :
    (releaseGrant i s).keys = s.keys := by unfold releaseGrant; dsimp only; split <;> rfl
@[simp] theorem releaseGrant_monitor (i : SlotId) (s : State) :
    (releaseGrant i s).monitor = s.monitor := by unfold releaseGrant; dsimp only; split <;> rfl
@[simp] theorem releaseGrant_sets (i : SlotId) (s : State) :
    (releaseGrant i s).sets = s.sets := by unfold releaseGrant; dsimp only; split <;> rfl
@[simp] theorem releaseGrant_planner (i : SlotId) (s : State) :
    (releaseGrant i s).planner = s.planner := by unfold releaseGrant; dsimp only; split <;> rfl
@[simp] theorem releaseGrant_sequencer (i : SlotId) (s : State) :
    (releaseGrant i s).sequencer = s.sequencer := by unfold releaseGrant; dsimp only; split <;> rfl
@[simp] theorem releaseGrant_recorder (i : SlotId) (s : State) :
    (releaseGrant i s).recorder = s.recorder := by unfold releaseGrant; dsimp only; split <;> rfl
@[simp] theorem releaseGrant_link (i : SlotId) (s : State) :
    (releaseGrant i s).link = s.link := by unfold releaseGrant; dsimp only; split <;> rfl

@[simp] theorem slot_releaseGrant_ne (i : SlotId) (s : State) {j : SlotId} (h : j ≠ i) :
    (releaseGrant i s).slot j = s.slot j := by
  unfold releaseGrant
  dsimp only
  split
  · exact slot_of_set (s := s) rfl h
  · rfl
@[simp] theorem releaseGrant_queue (i : SlotId) (s : State) : (releaseGrant i s).arbiter.queue = s.arbiter.queue := by
  unfold releaseGrant; dsimp only; split <;> rfl
@[simp] theorem releaseGrant_budget (i : SlotId) (s : State) : (releaseGrant i s).arbiter.budget = s.arbiter.budget := by
  unfold releaseGrant; dsimp only; split <;> rfl
@[simp] theorem releaseGrant_rampLimit (i : SlotId) (s : State) :
    (releaseGrant i s).arbiter.rampLimit = s.arbiter.rampLimit := by
  unfold releaseGrant; dsimp only; split <;> rfl

/-! ### A transfer ended -/

@[simp] theorem endTransfer_pending (i : SlotId) (n : Nat) (s : State) :
    (endTransfer i n s).pending = s.pending := by unfold endTransfer; split <;> rfl
@[simp] theorem endTransfer_inReset (i : SlotId) (n : Nat) (s : State) :
    (endTransfer i n s).inReset = s.inReset := by unfold endTransfer; split <;> rfl
@[simp] theorem endTransfer_times (i : SlotId) (n : Nat) (s : State) :
    (endTransfer i n s).times = s.times := by unfold endTransfer; split <;> rfl
@[simp] theorem endTransfer_engine (i : SlotId) (n : Nat) (s : State) :
    (endTransfer i n s).engine = s.engine := by unfold endTransfer; split <;> rfl
@[simp] theorem endTransfer_policy (i : SlotId) (n : Nat) (s : State) :
    (endTransfer i n s).policy = s.policy := by unfold endTransfer; split <;> rfl
@[simp] theorem endTransfer_keys (i : SlotId) (n : Nat) (s : State) :
    (endTransfer i n s).keys = s.keys := by unfold endTransfer; split <;> rfl
@[simp] theorem endTransfer_arbiter (i : SlotId) (n : Nat) (s : State) :
    (endTransfer i n s).arbiter = s.arbiter := by unfold endTransfer; split <;> rfl
@[simp] theorem endTransfer_monitor (i : SlotId) (n : Nat) (s : State) :
    (endTransfer i n s).monitor = s.monitor := by unfold endTransfer; split <;> rfl
@[simp] theorem endTransfer_planner (i : SlotId) (n : Nat) (s : State) :
    (endTransfer i n s).planner = s.planner := by unfold endTransfer; split <;> rfl
@[simp] theorem endTransfer_sequencer (i : SlotId) (n : Nat) (s : State) :
    (endTransfer i n s).sequencer = s.sequencer := by unfold endTransfer; split <;> rfl
@[simp] theorem endTransfer_recorder (i : SlotId) (n : Nat) (s : State) :
    (endTransfer i n s).recorder = s.recorder := by unfold endTransfer; split <;> rfl
@[simp] theorem endTransfer_link (i : SlotId) (n : Nat) (s : State) :
    (endTransfer i n s).link = s.link := by unfold endTransfer; split <;> rfl

@[simp] theorem slot_endTransfer_ne (i : SlotId) (n : Nat) (s : State) {j : SlotId} (h : j ≠ i) :
    (endTransfer i n s).slot j = s.slot j := by
  unfold endTransfer
  split
  · rfl
  · exact slot_of_set (s := s) rfl h

/-! ### A transfer cut -/

@[simp] theorem cutTransfer_pending (i : SlotId) (s : State) :
    (cutTransfer i s).pending = s.pending := by simp [cutTransfer]
@[simp] theorem cutTransfer_inReset (i : SlotId) (s : State) :
    (cutTransfer i s).inReset = s.inReset := by simp [cutTransfer]
@[simp] theorem cutTransfer_times (i : SlotId) (s : State) :
    (cutTransfer i s).times = s.times := by simp [cutTransfer]
@[simp] theorem cutTransfer_engine (i : SlotId) (s : State) :
    (cutTransfer i s).engine = s.engine := by simp [cutTransfer]
@[simp] theorem cutTransfer_policy (i : SlotId) (s : State) :
    (cutTransfer i s).policy = s.policy := by simp [cutTransfer]
@[simp] theorem cutTransfer_keys (i : SlotId) (s : State) :
    (cutTransfer i s).keys = s.keys := by simp [cutTransfer]
@[simp] theorem cutTransfer_arbiter (i : SlotId) (s : State) :
    (cutTransfer i s).arbiter = s.arbiter := by simp [cutTransfer]
@[simp] theorem cutTransfer_monitor (i : SlotId) (s : State) :
    (cutTransfer i s).monitor = s.monitor := by simp [cutTransfer]
@[simp] theorem cutTransfer_planner (i : SlotId) (s : State) :
    (cutTransfer i s).planner = s.planner := by simp [cutTransfer]
@[simp] theorem cutTransfer_sequencer (i : SlotId) (s : State) :
    (cutTransfer i s).sequencer = s.sequencer := by simp [cutTransfer]
@[simp] theorem cutTransfer_recorder (i : SlotId) (s : State) :
    (cutTransfer i s).recorder = s.recorder := by simp [cutTransfer]
@[simp] theorem cutTransfer_link (i : SlotId) (s : State) :
    (cutTransfer i s).link = s.link := by simp [cutTransfer]

@[simp] theorem slot_cutTransfer_ne (i : SlotId) (s : State) {j : SlotId} (h : j ≠ i) :
    (cutTransfer i s).slot j = s.slot j := by simp [cutTransfer, h]
@[simp] theorem slot_dropChecks_ne (i : SlotId) (s : State) {j : SlotId} (h : j ≠ i) :
    (dropChecks i s).slot j = s.slot j := slot_updSlot_ne s _ h

/-! ### The power-down actions -/

@[simp] theorem powerDown_pending (i : SlotId) (s : State) :
    (powerDown i s).pending = s.pending := by simp [powerDown]
@[simp] theorem powerDown_inReset (i : SlotId) (s : State) :
    (powerDown i s).inReset = s.inReset := by simp [powerDown]
@[simp] theorem powerDown_times (i : SlotId) (s : State) :
    (powerDown i s).times = s.times := by simp [powerDown]
@[simp] theorem powerDown_policy (i : SlotId) (s : State) :
    (powerDown i s).policy = s.policy := by simp [powerDown]
@[simp] theorem powerDown_keys (i : SlotId) (s : State) :
    (powerDown i s).keys = s.keys := by simp [powerDown]
@[simp] theorem powerDown_monitor (i : SlotId) (s : State) :
    (powerDown i s).monitor = s.monitor := by simp [powerDown]
@[simp] theorem powerDown_recorder (i : SlotId) (s : State) :
    (powerDown i s).recorder = s.recorder := by simp [powerDown]
@[simp] theorem powerDown_link (i : SlotId) (s : State) :
    (powerDown i s).link = s.link := by simp [powerDown]

@[simp] theorem slot_powerDown_ne (i : SlotId) (s : State) {j : SlotId} (h : j ≠ i) :
    (powerDown i s).slot j = s.slot j := by simp [powerDown, h]

/-! ### The walk of the room queue -/

@[simp] theorem joinPlan_pending (i : SlotId) (p : List PlanWindow) (s : State) : (joinPlan i p s).pending = s.pending := by
  simp [joinPlan]
theorem walkFrom_pending (q : List SlotId) : ∀ s : State, (walkFrom q s).pending = s.pending := by
  induction q with
  | nil => intro s; rfl
  | cons i q ih => intro s; unfold walkFrom; split
                   · rw [ih]; simp
                   · exact ih s
@[simp] theorem walkRoom_pending (s : State) : (walkRoom s).pending = s.pending := walkFrom_pending _ s
@[simp] theorem joinPlan_inReset (i : SlotId) (p : List PlanWindow) (s : State) : (joinPlan i p s).inReset = s.inReset := by
  simp [joinPlan]
theorem walkFrom_inReset (q : List SlotId) : ∀ s : State, (walkFrom q s).inReset = s.inReset := by
  induction q with
  | nil => intro s; rfl
  | cons i q ih => intro s; unfold walkFrom; split
                   · rw [ih]; simp
                   · exact ih s
@[simp] theorem walkRoom_inReset (s : State) : (walkRoom s).inReset = s.inReset := walkFrom_inReset _ s
@[simp] theorem joinPlan_times (i : SlotId) (p : List PlanWindow) (s : State) : (joinPlan i p s).times = s.times := by
  simp [joinPlan]
theorem walkFrom_times (q : List SlotId) : ∀ s : State, (walkFrom q s).times = s.times := by
  induction q with
  | nil => intro s; rfl
  | cons i q ih => intro s; unfold walkFrom; split
                   · rw [ih]; simp
                   · exact ih s
@[simp] theorem walkRoom_times (s : State) : (walkRoom s).times = s.times := walkFrom_times _ s
@[simp] theorem joinPlan_engine (i : SlotId) (p : List PlanWindow) (s : State) : (joinPlan i p s).engine = s.engine := by
  simp [joinPlan]
theorem walkFrom_engine (q : List SlotId) : ∀ s : State, (walkFrom q s).engine = s.engine := by
  induction q with
  | nil => intro s; rfl
  | cons i q ih => intro s; unfold walkFrom; split
                   · rw [ih]; simp
                   · exact ih s
@[simp] theorem walkRoom_engine (s : State) : (walkRoom s).engine = s.engine := walkFrom_engine _ s
@[simp] theorem joinPlan_policy (i : SlotId) (p : List PlanWindow) (s : State) : (joinPlan i p s).policy = s.policy := by
  simp [joinPlan]
theorem walkFrom_policy (q : List SlotId) : ∀ s : State, (walkFrom q s).policy = s.policy := by
  induction q with
  | nil => intro s; rfl
  | cons i q ih => intro s; unfold walkFrom; split
                   · rw [ih]; simp
                   · exact ih s
@[simp] theorem walkRoom_policy (s : State) : (walkRoom s).policy = s.policy := walkFrom_policy _ s
@[simp] theorem joinPlan_keys (i : SlotId) (p : List PlanWindow) (s : State) : (joinPlan i p s).keys = s.keys := by
  simp [joinPlan]
theorem walkFrom_keys (q : List SlotId) : ∀ s : State, (walkFrom q s).keys = s.keys := by
  induction q with
  | nil => intro s; rfl
  | cons i q ih => intro s; unfold walkFrom; split
                   · rw [ih]; simp
                   · exact ih s
@[simp] theorem walkRoom_keys (s : State) : (walkRoom s).keys = s.keys := walkFrom_keys _ s
@[simp] theorem joinPlan_arbiter (i : SlotId) (p : List PlanWindow) (s : State) : (joinPlan i p s).arbiter = s.arbiter := by
  simp [joinPlan]
theorem walkFrom_arbiter (q : List SlotId) : ∀ s : State, (walkFrom q s).arbiter = s.arbiter := by
  induction q with
  | nil => intro s; rfl
  | cons i q ih => intro s; unfold walkFrom; split
                   · rw [ih]; simp
                   · exact ih s
@[simp] theorem walkRoom_arbiter (s : State) : (walkRoom s).arbiter = s.arbiter := walkFrom_arbiter _ s
@[simp] theorem joinPlan_monitor (i : SlotId) (p : List PlanWindow) (s : State) : (joinPlan i p s).monitor = s.monitor := by
  simp [joinPlan]
theorem walkFrom_monitor (q : List SlotId) : ∀ s : State, (walkFrom q s).monitor = s.monitor := by
  induction q with
  | nil => intro s; rfl
  | cons i q ih => intro s; unfold walkFrom; split
                   · rw [ih]; simp
                   · exact ih s
@[simp] theorem walkRoom_monitor (s : State) : (walkRoom s).monitor = s.monitor := walkFrom_monitor _ s
@[simp] theorem joinPlan_sets (i : SlotId) (p : List PlanWindow) (s : State) : (joinPlan i p s).sets = s.sets := by
  simp [joinPlan]
theorem walkFrom_sets (q : List SlotId) : ∀ s : State, (walkFrom q s).sets = s.sets := by
  induction q with
  | nil => intro s; rfl
  | cons i q ih => intro s; unfold walkFrom; split
                   · rw [ih]; simp
                   · exact ih s
@[simp] theorem walkRoom_sets (s : State) : (walkRoom s).sets = s.sets := walkFrom_sets _ s
@[simp] theorem joinPlan_sequencer (i : SlotId) (p : List PlanWindow) (s : State) : (joinPlan i p s).sequencer = s.sequencer := by
  simp [joinPlan]
theorem walkFrom_sequencer (q : List SlotId) : ∀ s : State, (walkFrom q s).sequencer = s.sequencer := by
  induction q with
  | nil => intro s; rfl
  | cons i q ih => intro s; unfold walkFrom; split
                   · rw [ih]; simp
                   · exact ih s
@[simp] theorem walkRoom_sequencer (s : State) : (walkRoom s).sequencer = s.sequencer := walkFrom_sequencer _ s

@[simp] theorem joinPlan_replies (i : SlotId) (p : List PlanWindow) (s : State) :
    (joinPlan i p s).link.replies = s.link.replies := by simp [joinPlan]
@[simp] theorem slot_joinPlan_ne (i : SlotId) (p : List PlanWindow) (s : State) {j : SlotId} (h : j ≠ i) :
    (joinPlan i p s).slot j = s.slot j := by
  simp only [joinPlan]
  rw [slot_transition_ne _ _ _ _ h]
  rfl
theorem walkFrom_replies (q : List SlotId) : ∀ s : State, (walkFrom q s).link.replies = s.link.replies := by
  induction q with
  | nil => intro s; rfl
  | cons i q ih => intro s; unfold walkFrom; split
                   · rw [ih]; simp
                   · exact ih s
@[simp] theorem walkRoom_replies (s : State) : (walkRoom s).link.replies = s.link.replies := walkFrom_replies _ s
theorem walkFrom_settings (q : List SlotId) : ∀ s : State, (walkFrom q s).planner.settings = s.planner.settings := by
  induction q with
  | nil => intro s; rfl
  | cons i q ih => intro s; unfold walkFrom; split
                   · rw [ih]; simp [joinPlan, leaveRoom]
                   · exact ih s
@[simp] theorem walkRoom_settings (s : State) : (walkRoom s).planner.settings = s.planner.settings :=
  walkFrom_settings _ s

/-- A walk reaches only the slots of the room queue. -/
theorem slot_walkFrom (q : List SlotId) (j : SlotId) (h : j ∉ q) :
    ∀ s : State, (walkFrom q s).slot j = s.slot j := by
  induction q with
  | nil => intro s; rfl
  | cons i q ih =>
    intro s
    simp only [List.mem_cons, not_or] at h
    unfold walkFrom
    split
    · rw [ih h.2, slot_joinPlan_ne _ _ _ h.1]; rfl
    · exact ih h.2 s

theorem slot_walkRoom {j : SlotId} (s : State) (h : j ∉ s.planner.room) : (walkRoom s).slot j = s.slot j :=
  slot_walkFrom _ j h s

/-- With nobody waiting a walk does nothing. -/
theorem walkRoom_empty (s : State) (h : s.planner.room = []) : walkRoom s = s := by simp [walkRoom, h, walkFrom]

/-! ### What other blocks do after a power-down -/

@[simp] theorem followOn_pending (i : SlotId) (b s : State) :
    (followOn i b s).pending = s.pending := by unfold followOn; dsimp only; split <;> split <;> simp
@[simp] theorem followOn_inReset (i : SlotId) (b s : State) :
    (followOn i b s).inReset = s.inReset := by unfold followOn; dsimp only; split <;> split <;> simp
@[simp] theorem followOn_times (i : SlotId) (b s : State) :
    (followOn i b s).times = s.times := by unfold followOn; dsimp only; split <;> split <;> simp
@[simp] theorem followOn_engine (i : SlotId) (b s : State) :
    (followOn i b s).engine = s.engine := by unfold followOn; dsimp only; split <;> split <;> simp
@[simp] theorem followOn_policy (i : SlotId) (b s : State) :
    (followOn i b s).policy = s.policy := by unfold followOn; dsimp only; split <;> split <;> simp
@[simp] theorem followOn_keys (i : SlotId) (b s : State) :
    (followOn i b s).keys = s.keys := by unfold followOn; dsimp only; split <;> split <;> simp
@[simp] theorem followOn_monitor (i : SlotId) (b s : State) :
    (followOn i b s).monitor = s.monitor := by unfold followOn; dsimp only; split <;> split <;> simp
@[simp] theorem followOn_sets (i : SlotId) (b s : State) :
    (followOn i b s).sets = s.sets := by unfold followOn; dsimp only; split <;> split <;> simp
@[simp] theorem followOn_sequencer (i : SlotId) (b s : State) :
    (followOn i b s).sequencer = s.sequencer := by unfold followOn; dsimp only; split <;> split <;> simp

@[simp] theorem followOn_replies (i : SlotId) (b s : State) : (followOn i b s).link.replies = s.link.replies := by
  unfold followOn; dsimp only; split <;> split <;> simp
@[simp] theorem followOn_settings (i : SlotId) (b s : State) :
    (followOn i b s).planner.settings = s.planner.settings := by
  unfold followOn; dsimp only; split <;> split <;> simp

/-! ### A transition with the power-down actions -/

@[simp] theorem powerOff_pending (i : SlotId) (st : SlotState) (r : Reason) (s : State) :
    (powerOff i st r s).pending = s.pending := by simp [powerOff]
@[simp] theorem powerOff_inReset (i : SlotId) (st : SlotState) (r : Reason) (s : State) :
    (powerOff i st r s).inReset = s.inReset := by simp [powerOff]
@[simp] theorem powerOff_times (i : SlotId) (st : SlotState) (r : Reason) (s : State) :
    (powerOff i st r s).times = s.times := by simp [powerOff]
@[simp] theorem powerOff_policy (i : SlotId) (st : SlotState) (r : Reason) (s : State) :
    (powerOff i st r s).policy = s.policy := by simp [powerOff]
@[simp] theorem powerOff_keys (i : SlotId) (st : SlotState) (r : Reason) (s : State) :
    (powerOff i st r s).keys = s.keys := by simp [powerOff]
@[simp] theorem powerOff_monitor (i : SlotId) (st : SlotState) (r : Reason) (s : State) :
    (powerOff i st r s).monitor = s.monitor := by simp [powerOff]

@[simp] theorem powerOff_replies (i : SlotId) (st : SlotState) (r : Reason) (s : State) :
    (powerOff i st r s).link.replies = s.link.replies := by simp [powerOff]
@[simp] theorem powerOff_settings (i : SlotId) (st : SlotState) (r : Reason) (s : State) :
    (powerOff i st r s).planner.settings = s.planner.settings := by
  simp [powerOff, powerDown, leaveRoom, withdrawWindow]

/-! ### removeCard -/

@[simp] theorem removeCard_pending (i : SlotId) (s : State) :
    (removeCard i s).pending = s.pending := by simp [removeCard]
@[simp] theorem removeCard_inReset (i : SlotId) (s : State) :
    (removeCard i s).inReset = s.inReset := by simp [removeCard]
@[simp] theorem removeCard_times (i : SlotId) (s : State) :
    (removeCard i s).times = s.times := by simp [removeCard]
@[simp] theorem removeCard_policy (i : SlotId) (s : State) :
    (removeCard i s).policy = s.policy := by simp [removeCard]
@[simp] theorem removeCard_keys (i : SlotId) (s : State) :
    (removeCard i s).keys = s.keys := by simp [removeCard]
@[simp] theorem removeCard_monitor (i : SlotId) (s : State) :
    (removeCard i s).monitor = s.monitor := by simp [removeCard]

@[simp] theorem removeCard_replies (i : SlotId) (s : State) :
    (removeCard i s).link.replies = s.link.replies := by simp [removeCard]

/-! ### takeFault -/

@[simp] theorem takeFault_pending (i : SlotId) (code : Reason) (s : State) :
    (takeFault i code s).pending = s.pending := by unfold takeFault; dsimp only; split <;> simp
@[simp] theorem takeFault_inReset (i : SlotId) (code : Reason) (s : State) :
    (takeFault i code s).inReset = s.inReset := by unfold takeFault; dsimp only; split <;> simp
@[simp] theorem takeFault_times (i : SlotId) (code : Reason) (s : State) :
    (takeFault i code s).times = s.times := by unfold takeFault; dsimp only; split <;> simp
@[simp] theorem takeFault_policy (i : SlotId) (code : Reason) (s : State) :
    (takeFault i code s).policy = s.policy := by unfold takeFault; dsimp only; split <;> simp
@[simp] theorem takeFault_keys (i : SlotId) (code : Reason) (s : State) :
    (takeFault i code s).keys = s.keys := by unfold takeFault; dsimp only; split <;> simp
@[simp] theorem takeFault_monitor (i : SlotId) (code : Reason) (s : State) :
    (takeFault i code s).monitor = s.monitor := by unfold takeFault; dsimp only; split <;> simp

@[simp] theorem takeFault_replies (i : SlotId) (code : Reason) (s : State) :
    (takeFault i code s).link.replies = s.link.replies := by unfold takeFault; dsimp only; split <;> simp

/-! ### toPowerWait -/

@[simp] theorem toPowerWait_pending (i : SlotId) (s : State) :
    (toPowerWait i s).pending = s.pending := by unfold toPowerWait; dsimp only; split <;> simp
@[simp] theorem toPowerWait_inReset (i : SlotId) (s : State) :
    (toPowerWait i s).inReset = s.inReset := by unfold toPowerWait; dsimp only; split <;> simp
@[simp] theorem toPowerWait_times (i : SlotId) (s : State) :
    (toPowerWait i s).times = s.times := by unfold toPowerWait; dsimp only; split <;> simp
@[simp] theorem toPowerWait_engine (i : SlotId) (s : State) :
    (toPowerWait i s).engine = s.engine := by unfold toPowerWait; dsimp only; split <;> simp
@[simp] theorem toPowerWait_policy (i : SlotId) (s : State) :
    (toPowerWait i s).policy = s.policy := by unfold toPowerWait; dsimp only; split <;> simp
@[simp] theorem toPowerWait_keys (i : SlotId) (s : State) :
    (toPowerWait i s).keys = s.keys := by unfold toPowerWait; dsimp only; split <;> simp
@[simp] theorem toPowerWait_monitor (i : SlotId) (s : State) :
    (toPowerWait i s).monitor = s.monitor := by unfold toPowerWait; dsimp only; split <;> simp
@[simp] theorem toPowerWait_sets (i : SlotId) (s : State) :
    (toPowerWait i s).sets = s.sets := by unfold toPowerWait; dsimp only; split <;> simp
@[simp] theorem toPowerWait_planner (i : SlotId) (s : State) :
    (toPowerWait i s).planner = s.planner := by unfold toPowerWait; dsimp only; split <;> simp
@[simp] theorem toPowerWait_sequencer (i : SlotId) (s : State) :
    (toPowerWait i s).sequencer = s.sequencer := by unfold toPowerWait; dsimp only; split <;> simp

@[simp] theorem toPowerWait_replies (i : SlotId) (s : State) :
    (toPowerWait i s).link.replies = s.link.replies := by unfold toPowerWait; dsimp only; split <;> simp

/-! ### toIdentifying -/

@[simp] theorem toIdentifying_pending (i : SlotId) (r : Reason) (s : State) :
    (toIdentifying i r s).pending = s.pending := by simp [toIdentifying]
@[simp] theorem toIdentifying_inReset (i : SlotId) (r : Reason) (s : State) :
    (toIdentifying i r s).inReset = s.inReset := by simp [toIdentifying]
@[simp] theorem toIdentifying_times (i : SlotId) (r : Reason) (s : State) :
    (toIdentifying i r s).times = s.times := by simp [toIdentifying]
@[simp] theorem toIdentifying_policy (i : SlotId) (r : Reason) (s : State) :
    (toIdentifying i r s).policy = s.policy := by simp [toIdentifying]
@[simp] theorem toIdentifying_keys (i : SlotId) (r : Reason) (s : State) :
    (toIdentifying i r s).keys = s.keys := by simp [toIdentifying]
@[simp] theorem toIdentifying_arbiter (i : SlotId) (r : Reason) (s : State) :
    (toIdentifying i r s).arbiter = s.arbiter := by simp [toIdentifying]
@[simp] theorem toIdentifying_monitor (i : SlotId) (r : Reason) (s : State) :
    (toIdentifying i r s).monitor = s.monitor := by simp [toIdentifying]
@[simp] theorem toIdentifying_sets (i : SlotId) (r : Reason) (s : State) :
    (toIdentifying i r s).sets = s.sets := by simp [toIdentifying]
@[simp] theorem toIdentifying_planner (i : SlotId) (r : Reason) (s : State) :
    (toIdentifying i r s).planner = s.planner := by simp [toIdentifying]
@[simp] theorem toIdentifying_sequencer (i : SlotId) (r : Reason) (s : State) :
    (toIdentifying i r s).sequencer = s.sequencer := by simp [toIdentifying]

@[simp] theorem toIdentifying_replies (i : SlotId) (r : Reason) (s : State) :
    (toIdentifying i r s).link.replies = s.link.replies := by simp [toIdentifying]

/-! ### toContactState -/

@[simp] theorem toContactState_pending (i : SlotId) (s : State) :
    (toContactState i s).pending = s.pending := by unfold toContactState; split <;> simp
@[simp] theorem toContactState_inReset (i : SlotId) (s : State) :
    (toContactState i s).inReset = s.inReset := by unfold toContactState; split <;> simp
@[simp] theorem toContactState_times (i : SlotId) (s : State) :
    (toContactState i s).times = s.times := by unfold toContactState; split <;> simp
@[simp] theorem toContactState_policy (i : SlotId) (s : State) :
    (toContactState i s).policy = s.policy := by unfold toContactState; split <;> simp
@[simp] theorem toContactState_keys (i : SlotId) (s : State) :
    (toContactState i s).keys = s.keys := by unfold toContactState; split <;> simp
@[simp] theorem toContactState_arbiter (i : SlotId) (s : State) :
    (toContactState i s).arbiter = s.arbiter := by unfold toContactState; split <;> simp
@[simp] theorem toContactState_monitor (i : SlotId) (s : State) :
    (toContactState i s).monitor = s.monitor := by unfold toContactState; split <;> simp
@[simp] theorem toContactState_sets (i : SlotId) (s : State) :
    (toContactState i s).sets = s.sets := by unfold toContactState; split <;> simp
@[simp] theorem toContactState_planner (i : SlotId) (s : State) :
    (toContactState i s).planner = s.planner := by unfold toContactState; split <;> simp
@[simp] theorem toContactState_sequencer (i : SlotId) (s : State) :
    (toContactState i s).sequencer = s.sequencer := by unfold toContactState; split <;> simp

@[simp] theorem toContactState_replies (i : SlotId) (s : State) :
    (toContactState i s).link.replies = s.link.replies := by unfold toContactState; split <;> simp

/-! ### toConsentWait -/

@[simp] theorem toConsentWait_pending (i : SlotId) (s : State) :
    (toConsentWait i s).pending = s.pending := by simp [toConsentWait]
@[simp] theorem toConsentWait_inReset (i : SlotId) (s : State) :
    (toConsentWait i s).inReset = s.inReset := by simp [toConsentWait]
@[simp] theorem toConsentWait_times (i : SlotId) (s : State) :
    (toConsentWait i s).times = s.times := by simp [toConsentWait]
@[simp] theorem toConsentWait_engine (i : SlotId) (s : State) :
    (toConsentWait i s).engine = s.engine := by simp [toConsentWait]
@[simp] theorem toConsentWait_policy (i : SlotId) (s : State) :
    (toConsentWait i s).policy = s.policy := by simp [toConsentWait]
@[simp] theorem toConsentWait_keys (i : SlotId) (s : State) :
    (toConsentWait i s).keys = s.keys := by simp [toConsentWait]
@[simp] theorem toConsentWait_arbiter (i : SlotId) (s : State) :
    (toConsentWait i s).arbiter = s.arbiter := by simp [toConsentWait]
@[simp] theorem toConsentWait_monitor (i : SlotId) (s : State) :
    (toConsentWait i s).monitor = s.monitor := by simp [toConsentWait]
@[simp] theorem toConsentWait_sets (i : SlotId) (s : State) :
    (toConsentWait i s).sets = s.sets := by simp [toConsentWait]
@[simp] theorem toConsentWait_planner (i : SlotId) (s : State) :
    (toConsentWait i s).planner = s.planner := by simp [toConsentWait]
@[simp] theorem toConsentWait_sequencer (i : SlotId) (s : State) :
    (toConsentWait i s).sequencer = s.sequencer := by simp [toConsentWait]

@[simp] theorem toConsentWait_replies (i : SlotId) (s : State) :
    (toConsentWait i s).link.replies = s.link.replies := by simp [toConsentWait]

/-! ### toUnlocking -/

@[simp] theorem toUnlocking_pending (i : SlotId) (s : State) :
    (toUnlocking i s).pending = s.pending := by simp [toUnlocking]
@[simp] theorem toUnlocking_inReset (i : SlotId) (s : State) :
    (toUnlocking i s).inReset = s.inReset := by simp [toUnlocking]
@[simp] theorem toUnlocking_times (i : SlotId) (s : State) :
    (toUnlocking i s).times = s.times := by simp [toUnlocking]
@[simp] theorem toUnlocking_policy (i : SlotId) (s : State) :
    (toUnlocking i s).policy = s.policy := by simp [toUnlocking]
@[simp] theorem toUnlocking_keys (i : SlotId) (s : State) :
    (toUnlocking i s).keys = s.keys := by simp [toUnlocking]
@[simp] theorem toUnlocking_arbiter (i : SlotId) (s : State) :
    (toUnlocking i s).arbiter = s.arbiter := by simp [toUnlocking]
@[simp] theorem toUnlocking_monitor (i : SlotId) (s : State) :
    (toUnlocking i s).monitor = s.monitor := by simp [toUnlocking]
@[simp] theorem toUnlocking_sets (i : SlotId) (s : State) :
    (toUnlocking i s).sets = s.sets := by simp [toUnlocking]
@[simp] theorem toUnlocking_planner (i : SlotId) (s : State) :
    (toUnlocking i s).planner = s.planner := by simp [toUnlocking]
@[simp] theorem toUnlocking_sequencer (i : SlotId) (s : State) :
    (toUnlocking i s).sequencer = s.sequencer := by simp [toUnlocking]

@[simp] theorem toUnlocking_replies (i : SlotId) (s : State) :
    (toUnlocking i s).link.replies = s.link.replies := by simp [toUnlocking]

/-! ### admitCard -/

@[simp] theorem admitCard_pending (i : SlotId) (s : State) :
    (admitCard i s).pending = s.pending := by unfold admitCard; split <;> simp
@[simp] theorem admitCard_inReset (i : SlotId) (s : State) :
    (admitCard i s).inReset = s.inReset := by unfold admitCard; split <;> simp
@[simp] theorem admitCard_times (i : SlotId) (s : State) :
    (admitCard i s).times = s.times := by unfold admitCard; split <;> simp
@[simp] theorem admitCard_policy (i : SlotId) (s : State) :
    (admitCard i s).policy = s.policy := by unfold admitCard; split <;> simp
@[simp] theorem admitCard_keys (i : SlotId) (s : State) :
    (admitCard i s).keys = s.keys := by unfold admitCard; split <;> simp
@[simp] theorem admitCard_monitor (i : SlotId) (s : State) :
    (admitCard i s).monitor = s.monitor := by unfold admitCard; split <;> simp
@[simp] theorem admitCard_sets (i : SlotId) (s : State) :
    (admitCard i s).sets = s.sets := by unfold admitCard; split <;> simp
@[simp] theorem admitCard_planner (i : SlotId) (s : State) :
    (admitCard i s).planner = s.planner := by unfold admitCard; split <;> simp
@[simp] theorem admitCard_sequencer (i : SlotId) (s : State) :
    (admitCard i s).sequencer = s.sequencer := by unfold admitCard; split <;> simp

@[simp] theorem admitCard_replies (i : SlotId) (s : State) :
    (admitCard i s).link.replies = s.link.replies := by unfold admitCard; split <;> simp

/-! ### pollStatus -/

@[simp] theorem pollStatus_pending (i : SlotId) (s : State) :
    (pollStatus i s).pending = s.pending := by simp [pollStatus]
@[simp] theorem pollStatus_inReset (i : SlotId) (s : State) :
    (pollStatus i s).inReset = s.inReset := by simp [pollStatus]
@[simp] theorem pollStatus_times (i : SlotId) (s : State) :
    (pollStatus i s).times = s.times := by simp [pollStatus]
@[simp] theorem pollStatus_policy (i : SlotId) (s : State) :
    (pollStatus i s).policy = s.policy := by simp [pollStatus]
@[simp] theorem pollStatus_keys (i : SlotId) (s : State) :
    (pollStatus i s).keys = s.keys := by simp [pollStatus]
@[simp] theorem pollStatus_arbiter (i : SlotId) (s : State) :
    (pollStatus i s).arbiter = s.arbiter := by simp [pollStatus]
@[simp] theorem pollStatus_monitor (i : SlotId) (s : State) :
    (pollStatus i s).monitor = s.monitor := by simp [pollStatus]
@[simp] theorem pollStatus_sets (i : SlotId) (s : State) :
    (pollStatus i s).sets = s.sets := by simp [pollStatus]
@[simp] theorem pollStatus_planner (i : SlotId) (s : State) :
    (pollStatus i s).planner = s.planner := by simp [pollStatus]
@[simp] theorem pollStatus_sequencer (i : SlotId) (s : State) :
    (pollStatus i s).sequencer = s.sequencer := by simp [pollStatus]
@[simp] theorem pollStatus_recorder (i : SlotId) (s : State) :
    (pollStatus i s).recorder = s.recorder := by simp [pollStatus]
@[simp] theorem pollStatus_link (i : SlotId) (s : State) :
    (pollStatus i s).link = s.link := by simp [pollStatus]

@[simp] theorem pollStatus_replies (i : SlotId) (s : State) :
    (pollStatus i s).link.replies = s.link.replies := by simp [pollStatus]

/-! ### insertWindow -/

@[simp] theorem insertWindow_pending (i : SlotId) (s : State) :
    (insertWindow i s).pending = s.pending := by unfold insertWindow; split <;> simp
@[simp] theorem insertWindow_inReset (i : SlotId) (s : State) :
    (insertWindow i s).inReset = s.inReset := by unfold insertWindow; split <;> simp
@[simp] theorem insertWindow_times (i : SlotId) (s : State) :
    (insertWindow i s).times = s.times := by unfold insertWindow; split <;> simp
@[simp] theorem insertWindow_engine (i : SlotId) (s : State) :
    (insertWindow i s).engine = s.engine := by unfold insertWindow; split <;> simp
@[simp] theorem insertWindow_policy (i : SlotId) (s : State) :
    (insertWindow i s).policy = s.policy := by unfold insertWindow; split <;> simp
@[simp] theorem insertWindow_keys (i : SlotId) (s : State) :
    (insertWindow i s).keys = s.keys := by unfold insertWindow; split <;> simp
@[simp] theorem insertWindow_arbiter (i : SlotId) (s : State) :
    (insertWindow i s).arbiter = s.arbiter := by unfold insertWindow; split <;> simp
@[simp] theorem insertWindow_monitor (i : SlotId) (s : State) :
    (insertWindow i s).monitor = s.monitor := by unfold insertWindow; split <;> simp
@[simp] theorem insertWindow_sets (i : SlotId) (s : State) :
    (insertWindow i s).sets = s.sets := by unfold insertWindow; split <;> simp
@[simp] theorem insertWindow_sequencer (i : SlotId) (s : State) :
    (insertWindow i s).sequencer = s.sequencer := by unfold insertWindow; split <;> simp

@[simp] theorem insertWindow_replies (i : SlotId) (s : State) :
    (insertWindow i s).link.replies = s.link.replies := by unfold insertWindow; split <;> simp

/-! ### nextBlock -/

@[simp] theorem nextBlock_pending (i : SlotId) (n : Fin 8) (s : State) :
    (nextBlock i n s).pending = s.pending := by unfold nextBlock; dsimp only; split <;> simp
@[simp] theorem nextBlock_inReset (i : SlotId) (n : Fin 8) (s : State) :
    (nextBlock i n s).inReset = s.inReset := by unfold nextBlock; dsimp only; split <;> simp
@[simp] theorem nextBlock_slots (i : SlotId) (n : Fin 8) (s : State) :
    (nextBlock i n s).slots = s.slots := by unfold nextBlock; dsimp only; split <;> simp
@[simp] theorem nextBlock_times (i : SlotId) (n : Fin 8) (s : State) :
    (nextBlock i n s).times = s.times := by unfold nextBlock; dsimp only; split <;> simp
@[simp] theorem nextBlock_policy (i : SlotId) (n : Fin 8) (s : State) :
    (nextBlock i n s).policy = s.policy := by unfold nextBlock; dsimp only; split <;> simp
@[simp] theorem nextBlock_keys (i : SlotId) (n : Fin 8) (s : State) :
    (nextBlock i n s).keys = s.keys := by unfold nextBlock; dsimp only; split <;> simp
@[simp] theorem nextBlock_arbiter (i : SlotId) (n : Fin 8) (s : State) :
    (nextBlock i n s).arbiter = s.arbiter := by unfold nextBlock; dsimp only; split <;> simp
@[simp] theorem nextBlock_monitor (i : SlotId) (n : Fin 8) (s : State) :
    (nextBlock i n s).monitor = s.monitor := by unfold nextBlock; dsimp only; split <;> simp
@[simp] theorem nextBlock_sets (i : SlotId) (n : Fin 8) (s : State) :
    (nextBlock i n s).sets = s.sets := by unfold nextBlock; dsimp only; split <;> simp
@[simp] theorem nextBlock_planner (i : SlotId) (n : Fin 8) (s : State) :
    (nextBlock i n s).planner = s.planner := by unfold nextBlock; dsimp only; split <;> simp
@[simp] theorem nextBlock_sequencer (i : SlotId) (n : Fin 8) (s : State) :
    (nextBlock i n s).sequencer = s.sequencer := by unfold nextBlock; dsimp only; split <;> simp
@[simp] theorem nextBlock_recorder (i : SlotId) (n : Fin 8) (s : State) :
    (nextBlock i n s).recorder = s.recorder := by unfold nextBlock; dsimp only; split <;> simp
@[simp] theorem nextBlock_link (i : SlotId) (n : Fin 8) (s : State) :
    (nextBlock i n s).link = s.link := by unfold nextBlock; dsimp only; split <;> simp

@[simp] theorem nextBlock_replies (i : SlotId) (n : Fin 8) (s : State) :
    (nextBlock i n s).link.replies = s.link.replies := by unfold nextBlock; dsimp only; split <;> simp

/-! ### startTransfer -/

@[simp] theorem startTransfer_pending (i : SlotId) (n : Fin 8) (s : State) :
    (startTransfer i n s).pending = s.pending := by unfold startTransfer; dsimp only; split <;> simp
@[simp] theorem startTransfer_inReset (i : SlotId) (n : Fin 8) (s : State) :
    (startTransfer i n s).inReset = s.inReset := by unfold startTransfer; dsimp only; split <;> simp
@[simp] theorem startTransfer_times (i : SlotId) (n : Fin 8) (s : State) :
    (startTransfer i n s).times = s.times := by unfold startTransfer; dsimp only; split <;> simp
@[simp] theorem startTransfer_policy (i : SlotId) (n : Fin 8) (s : State) :
    (startTransfer i n s).policy = s.policy := by unfold startTransfer; dsimp only; split <;> simp
@[simp] theorem startTransfer_keys (i : SlotId) (n : Fin 8) (s : State) :
    (startTransfer i n s).keys = s.keys := by unfold startTransfer; dsimp only; split <;> simp
@[simp] theorem startTransfer_arbiter (i : SlotId) (n : Fin 8) (s : State) :
    (startTransfer i n s).arbiter = s.arbiter := by unfold startTransfer; dsimp only; split <;> simp
@[simp] theorem startTransfer_monitor (i : SlotId) (n : Fin 8) (s : State) :
    (startTransfer i n s).monitor = s.monitor := by unfold startTransfer; dsimp only; split <;> simp
@[simp] theorem startTransfer_planner (i : SlotId) (n : Fin 8) (s : State) :
    (startTransfer i n s).planner = s.planner := by unfold startTransfer; dsimp only; split <;> simp
@[simp] theorem startTransfer_sequencer (i : SlotId) (n : Fin 8) (s : State) :
    (startTransfer i n s).sequencer = s.sequencer := by unfold startTransfer; dsimp only; split <;> simp
@[simp] theorem startTransfer_recorder (i : SlotId) (n : Fin 8) (s : State) :
    (startTransfer i n s).recorder = s.recorder := by unfold startTransfer; dsimp only; split <;> simp

@[simp] theorem startTransfer_replies (i : SlotId) (n : Fin 8) (s : State) :
    (startTransfer i n s).link.replies = s.link.replies := by unfold startTransfer; dsimp only; split <;> simp

/-! ### examineSet -/

@[simp] theorem examineSet_pending (i : SlotId) (n : Fin 8) (s : State) :
    (examineSet i n s).pending = s.pending := by unfold examineSet; split <;> (try split) <;> simp
@[simp] theorem examineSet_inReset (i : SlotId) (n : Fin 8) (s : State) :
    (examineSet i n s).inReset = s.inReset := by unfold examineSet; split <;> (try split) <;> simp
@[simp] theorem examineSet_times (i : SlotId) (n : Fin 8) (s : State) :
    (examineSet i n s).times = s.times := by unfold examineSet; split <;> (try split) <;> simp
@[simp] theorem examineSet_policy (i : SlotId) (n : Fin 8) (s : State) :
    (examineSet i n s).policy = s.policy := by unfold examineSet; split <;> (try split) <;> simp
@[simp] theorem examineSet_keys (i : SlotId) (n : Fin 8) (s : State) :
    (examineSet i n s).keys = s.keys := by unfold examineSet; split <;> (try split) <;> simp
@[simp] theorem examineSet_monitor (i : SlotId) (n : Fin 8) (s : State) :
    (examineSet i n s).monitor = s.monitor := by unfold examineSet; split <;> (try split) <;> simp

@[simp] theorem examineSet_replies (i : SlotId) (n : Fin 8) (s : State) :
    (examineSet i n s).link.replies = s.link.replies := by unfold examineSet; split <;> (try split) <;> simp

end Sys2Proof.Machine
end

