-- ==== Sys2Proof/Laws/Frame.lean ====
section
/-!
SUPPORT. `SlotFrame`: it composes, and every shared operation of one slot has it.
-/
namespace Sys2Proof.Machine

/-! ### The frame composes -/

theorem SlotFrame.refl (i : SlotId) (s : State) : SlotFrame i s s := by
  constructor <;> first | rfl | (intros; assumption) | (intros; rfl)

theorem ParamSet.pins_trans {a b c : ParamSet} (h1 : { b with pins := a.pins } = a) (h2 : { c with pins := b.pins } = b) :
    { c with pins := a.pins } = a := by
  cases a; cases b; cases c; simp_all

theorem Sequencer.run_trans {a b c : Sequencer} (h1 : { b with active := a.active, run := a.run } = a)
    (h2 : { c with active := b.active, run := b.run } = b) : { c with active := a.active, run := a.run } = a := by
  cases a; cases b; cases c; simp_all

theorem Recorder.gate_trans {a b c : Recorder} (h1 : { b with gateReports := a.gateReports } = a)
    (h2 : { c with gateReports := b.gateReports } = b) : { c with gateReports := a.gateReports } = a := by
  cases a; cases b; cases c; simp_all

theorem Link.queues_trans {a b c : Link} (h1 : { b with replies := a.replies, notices := a.notices } = a)
    (h2 : { c with replies := b.replies, notices := b.notices } = b) :
    { c with replies := a.replies, notices := a.notices } = a := by
  cases a; cases b; cases c; simp_all

theorem SlotFrame.trans {i : SlotId} {a b c : State} (h1 : SlotFrame i a b) (h2 : SlotFrame i b c) :
    SlotFrame i a c where
  pending := h2.pending.trans h1.pending
  inReset := h2.inReset.trans h1.inReset
  times := h2.times.trans h1.times
  policy := h2.policy.trans h1.policy
  keys := h2.keys.trans h1.keys
  monitor := h2.monitor.trans h1.monitor
  budget := h2.budget.trans h1.budget
  rampLimit := h2.rampLimit.trans h1.rampLimit
  settings := h2.settings.trans h1.settings
  sets n := ParamSet.pins_trans (h1.sets n) (h2.sets n)
  sequencer := Sequencer.run_trans h1.sequencer h2.sequencer
  recorder := Recorder.gate_trans h1.recorder h2.recorder
  link := Link.queues_trans h1.link h2.link
  jobs := h2.jobs.trans h1.jobs
  windows w hw hi := h2.windows w (h1.windows w hw hi) hi
  active := h2.active.trans h1.active
  run := h2.run.trans h1.run
  powerQueue j hj h := h1.powerQueue j hj (h2.powerQueue j hj h)
  roomQueue j hj h := h1.roomQueue j hj (h2.roomQueue j hj h)
  slots j hj hp hr := (h2.slots j hj (fun h => hp (h1.powerQueue j hj h)) (fun h => hr (h1.roomQueue j hj h))).trans
    (h1.slots j hj hp hr)

/-! ### Operations on the slot's record, its notice and its gate reports -/

theorem slotFrame_setSlot (i : SlotId) (s : State) (c : Slot) : SlotFrame i s (s.setSlot i c) := by
  constructor <;> first | rfl | (intros; assumption) | (intros; rfl) | skip
  intro j hj _ _
  exact slot_setSlot_ne s c hj

theorem slotFrame_updSlot (i : SlotId) (s : State) (f : Slot → Slot) : SlotFrame i s (s.updSlot i f) :=
  slotFrame_setSlot i s _

theorem slotFrame_postNotice (i : SlotId) (n : Notice) (s : State) : SlotFrame i s (postNotice n s) := by
  constructor <;> first | rfl | (intros; assumption) | (intros; rfl)

theorem slotFrame_queueReply (i : SlotId) (kind tag : Byte) (a : Answer) (s : State) :
    SlotFrame i s (queueReply kind tag a s) := by
  constructor <;> first | rfl | (intros; assumption) | (intros; rfl)

theorem slotFrame_reportGate (i j : SlotId) (old new : SlotState) (s : State) :
    SlotFrame i s (reportGate j old new s) := by
  unfold reportGate
  split
  · exact SlotFrame.refl i s
  · constructor <;> first | rfl | (intros; assumption) | (intros; rfl)

theorem slotFrame_transition (i : SlotId) (st : SlotState) (r : Reason) (s : State) :
    SlotFrame i s (transition i st r s) :=
  ((slotFrame_updSlot i s _).trans (slotFrame_reportGate i i _ _ _)).trans (slotFrame_postNotice i _ _)

theorem slotFrame_writeReason (i : SlotId) (r : Reason) (s : State) : SlotFrame i s (writeReason i r s) :=
  (slotFrame_updSlot i s _).trans (slotFrame_postNotice i _ _)

/-! ### The engine -/

/-- A change of the engine that leaves the other slots' jobs. -/
theorem slotFrame_engine (i : SlotId) (s : State) (e : Engine)
    (h : e.jobs.filter (fun j => decide (j.slot ≠ i)) = s.engine.jobs.filter fun j => decide (j.slot ≠ i)) :
    SlotFrame i s { s with engine := e } := by
  constructor <;> first | exact h | rfl | (intros; assumption) | (intros; rfl)

theorem startJob_jobs (s : State) : (startJob s).engine.jobs = s.engine.jobs := by
  unfold startJob
  split
  · rename_i hc hq
    simp [Engine.jobs, hc, hq]
  · rfl

theorem startJob_eq (s : State) : startJob s = { s with engine := (startJob s).engine } := by
  unfold startJob; split <;> rfl

theorem slotFrame_startJob (i : SlotId) (s : State) : SlotFrame i s (startJob s) := by
  rw [startJob_eq]
  exact slotFrame_engine i s _ (by rw [startJob_jobs])

theorem filter_jobsWithout (i : SlotId) (l : List Job) :
    (jobsWithout i l).filter (fun j => decide (j.slot ≠ i)) = l.filter fun j => decide (j.slot ≠ i) := by
  simp [jobsWithout, List.filter_filter]

theorem slotFrame_issueJob (i : SlotId) (t : Transaction) (s : State) : SlotFrame i s (issueJob i t s) := by
  unfold issueJob
  split
  · apply slotFrame_engine
    simp only [Engine.jobs, List.filter_append, filter_jobsWithout]
    simp
  · refine SlotFrame.trans (slotFrame_engine i s
      { s.engine with queue := s.engine.queue ++ [{ slot := i, transaction := t }] } ?_) (slotFrame_startJob i _)
    simp [Engine.jobs, List.filter_append]

theorem slotFrame_endJob (cur : CurrentJob) (o : JobOutcome) (d : List Byte) (n : Nat) (k : Option Nat) (s : State)
    (hc : s.engine.current = some cur) : SlotFrame cur.job.slot s (endJob cur o d n k s) := by
  refine SlotFrame.trans (slotFrame_updSlot cur.job.slot s _) (SlotFrame.trans (slotFrame_engine cur.job.slot _ _ ?_)
    (slotFrame_startJob _ _))
  simp only [Engine.jobs, List.filter_append, filter_jobsWithout, updSlot_engine, hc]
  simp [List.filter_filter]

theorem slotFrame_abortJob (i : SlotId) (s : State) : SlotFrame i s (abortJob i s) := by
  unfold abortJob
  split
  · rename_i cur hcur
    split
    · rename_i hi
      subst hi
      split
      · exact slotFrame_endJob cur _ _ _ _ s hcur
      · apply slotFrame_engine
        simp [Engine.jobs, hcur]
    · exact SlotFrame.refl i s
  · exact SlotFrame.refl i s

theorem slotFrame_withdrawJob (i : SlotId) (s : State) : SlotFrame i s (withdrawJob i s) := by
  refine SlotFrame.trans (slotFrame_updSlot i s _) (SlotFrame.trans (slotFrame_engine i _ _ ?_) (slotFrame_abortJob i _))
  simp only [Engine.jobs, List.filter_append, filter_jobsWithout]

/-! ### The arbiter, the planner and the sequencer -/

theorem slotFrame_leavePowerQueue (i : SlotId) (s : State) : SlotFrame i s (leavePowerQueue i s) := by
  constructor <;> first | rfl | (intros; assumption) | (intros; rfl) | skip
  intro j _ h
  simp only [leavePowerQueue, List.mem_map, List.mem_filter] at h
  obtain ⟨e, ⟨he, _⟩, rfl⟩ := h
  exact List.mem_map_of_mem he

theorem slotFrame_leaveRoom (i : SlotId) (s : State) : SlotFrame i s (leaveRoom i s) := by
  constructor <;> first | rfl | (intros; assumption) | (intros; rfl) | skip
  intro j _ h
  simp only [leaveRoom, List.mem_filter] at h
  exact h.1

theorem slotFrame_withdrawWindow (i : SlotId) (s : State) : SlotFrame i s (withdrawWindow i s) := by
  constructor <;> first | rfl | (intros; assumption) | (intros; rfl) | skip
  intro w hw hi
  simp only [withdrawWindow, List.mem_filter]
  exact ⟨hw, by simpa using hi⟩

theorem slotFrame_muteWindow (i : SlotId) (s : State) : SlotFrame i s (muteWindow i s) := by
  constructor <;> first | rfl | (intros; assumption) | (intros; rfl) | skip
  · simp only [muteWindow]
    induction s.sequencer.active with
    | nil => rfl
    | cons w l ih =>
      by_cases h : w.slot = i <;> simp_all
  · simp only [muteWindow]
    cases s.sequencer.run with
    | none => rfl
    | some r => by_cases h : r.slot = i <;> simp [Option.filter, h]

theorem slotFrame_releaseGrant (i : SlotId) (s : State) : SlotFrame i s (releaseGrant i s) := by
  unfold releaseGrant
  dsimp only
  split
  · refine SlotFrame.trans (b := s.updSlot i fun x => { x with grant := false }) (slotFrame_updSlot i s _) ?_
    constructor <;> first | rfl | (intros; assumption) | (intros; rfl)
  · exact SlotFrame.refl i s

theorem slotFrame_endTransfer (i : SlotId) (n : Nat) (s : State) : SlotFrame i s (endTransfer i n s) := by
  unfold endTransfer
  split
  · exact SlotFrame.refl i s
  · rename_i k _
    refine SlotFrame.trans (b := s.updSlot i fun c =>
      { c with wordsWritten := n, residual := s.sets[k].length - n, pin := none }) (slotFrame_updSlot i s _) ?_
    constructor <;> first | rfl | (intros; assumption) | (intros; rfl) | skip
    intro m
    by_cases h : k = m
    · subst h; simp
    · have hv : k.val ≠ m.val := fun e => h (Fin.ext e)
      simp [hv]

theorem slotFrame_cutTransfer (i : SlotId) (s : State) : SlotFrame i s (cutTransfer i s) := slotFrame_endTransfer i _ s

theorem slotFrame_dropChecks (i : SlotId) (s : State) : SlotFrame i s (dropChecks i s) := slotFrame_updSlot i s _

theorem slotFrame_powerDown (i : SlotId) (s : State) : SlotFrame i s (powerDown i s) :=
  (slotFrame_muteWindow i s).trans <| (slotFrame_withdrawWindow i _).trans <| (slotFrame_leaveRoom i _).trans <|
    (slotFrame_releaseGrant i _).trans <| (slotFrame_leavePowerQueue i _).trans <| (slotFrame_withdrawJob i _).trans <|
    (slotFrame_cutTransfer i _).trans <| slotFrame_dropChecks i _

/-! ### The examination and the walk -/

/-- A grant of another queued slot is within the frame. -/
theorem slotFrame_grantPower (i : SlotId) (e : PowerEntry) (rest : List PowerEntry) (s : State)
    (hq : s.arbiter.queue = e :: rest) : SlotFrame i s (grantPower e rest s) := by
  have hin : e.slot ∈ s.arbiter.queue.map PowerEntry.slot := by simp [hq]
  constructor
  case slots =>
    intro j _ hp _
    exact slot_grantPower_ne e rest s fun h => hp (h ▸ hin)
  case powerQueue =>
    intro j _ h
    rw [grantPower_arbiter] at h
    rw [hq]
    exact List.mem_cons_of_mem _ h
  case recorder =>
    simpa [grantPower] using transition_recorder e.slot .powering .none
      { s with arbiter := { s.arbiter with
          committed := s.arbiter.committed + e.power, ramping := s.arbiter.ramping + 1, queue := rest } }
  case link =>
    simp only [grantPower, updSlot_link, transition, postSlot, postNotice, reportGate_link]
  all_goals first | (simp; done) | (intros; simp_all; done)

theorem slotFrame_examineFrom (i : SlotId) (q : List PowerEntry) : ∀ s : State, s.arbiter.queue = q →
    SlotFrame i s (examineFrom q s) := by
  induction q with
  | nil => intro s _; exact SlotFrame.refl i s
  | cons e q ih =>
    intro s hq
    unfold examineFrom
    split
    · exact (slotFrame_grantPower i e q s hq).trans (ih _ (by simp))
    · exact SlotFrame.refl i s

theorem slotFrame_examine (i : SlotId) (s : State) : SlotFrame i s (examine s) := slotFrame_examineFrom i _ s rfl

theorem mem_placeWindow (v w : PlanWindow) (plan : List PlanWindow) :
    v ∈ placeWindow w plan ↔ v = w ∨ v ∈ plan := by
  induction plan with
  | nil => simp [placeWindow]
  | cons u plan ih =>
    unfold placeWindow
    split
    · simp
    · simp only [List.mem_cons, ih]
      exact or_left_comm

/-- A placed window is the slot's own, in a plan that fits. -/
theorem tryPlace_some {i : SlotId} {s : State} {plan : List PlanWindow} (h : tryPlace i s = some plan) :
    ∃ rank window, s.planner.settings.mode ≠ .off ∧ (s.slot i).screening.rank = some rank ∧
      (s.slot i).screening.window = some window ∧
      plan = placeWindow { slot := i, rank := rank, window := window } s.planner.plan ∧
      planFits s.planner.settings plan = true := by
  unfold tryPlace at h
  split at h
  · simp at h
  · rename_i rank window hr hw hm
    dsimp only at h
    split at h
    · rename_i hfit
      cases h
      exact ⟨rank, window, by simpa using hm, hr, hw, rfl, hfit⟩
    · simp at h
  · simp at h

/-- Placing the window of a slot that waited in the room queue stays within the frame. -/
theorem slotFrame_joinPlan {i k : SlotId} {plan : List PlanWindow} {s0 s : State} (h : SlotFrame i s0 s)
    (hk : k ∈ s0.planner.room) (hp : ∀ w ∈ s.planner.plan, w ∈ plan) :
    SlotFrame i s0 (joinPlan k plan (leaveRoom k s)) where
  pending := by simpa using h.pending
  inReset := by simpa using h.inReset
  times := by simpa using h.times
  policy := by simpa using h.policy
  keys := by simpa using h.keys
  monitor := by simpa using h.monitor
  budget := by simpa using h.budget
  rampLimit := by simpa using h.rampLimit
  settings := by simpa [joinPlan, leaveRoom] using h.settings
  sets n := by simpa using h.sets n
  sequencer := by simpa using h.sequencer
  recorder := Recorder.gate_trans h.recorder (by
    simpa [joinPlan] using transition_recorder k .joining .none
      { leaveRoom k s with planner := { (leaveRoom k s).planner with plan := plan } })
  link := Link.queues_trans h.link (by
    simp only [joinPlan, transition, postSlot, postNotice, reportGate_link, updSlot_link, leaveRoom_link])
  jobs := by simpa using h.jobs
  windows w hw hi := by simpa [joinPlan] using hp w (h.windows w hw hi)
  active := by simpa using h.active
  run := by simpa using h.run
  powerQueue j hj hin := h.powerQueue j hj (by simpa using hin)
  roomQueue j hj hin := by
    simp only [joinPlan, transition_planner, leaveRoom, List.mem_filter] at hin
    exact h.roomQueue j hj hin.1
  slots j hj hq hr := by
    have hne : j ≠ k := fun e => hr (e ▸ hk)
    rw [slot_joinPlan_ne _ _ _ hne]
    exact h.slots j hj hq hr

theorem slotFrame_walkFrom {i : SlotId} {s0 : State} (q : List SlotId) : ∀ s : State, SlotFrame i s0 s →
    (∀ k ∈ q, k ∈ s0.planner.room) → SlotFrame i s0 (walkFrom q s) := by
  induction q with
  | nil => intro s h _; exact h
  | cons k q ih =>
    intro s h hq
    unfold walkFrom
    split
    · rename_i plan hplan
      obtain ⟨rank, window, _, _, _, rfl, _⟩ := tryPlace_some hplan
      exact ih _ (slotFrame_joinPlan h (hq k (by simp)) fun w hw => (mem_placeWindow _ _ _).2 (.inr hw))
        fun j hj => hq j (by simp [hj])
    · exact ih s h fun j hj => hq j (by simp [hj])

theorem slotFrame_walkRoom (i : SlotId) (s : State) : SlotFrame i s (walkRoom s) :=
  slotFrame_walkFrom _ s (SlotFrame.refl i s) fun _ h => h

/-! ### What is built of them -/

theorem slotFrame_followOn (i : SlotId) (before s : State) : SlotFrame i s (followOn i before s) := by
  unfold followOn
  dsimp only
  split <;> split <;>
    first
    | exact (slotFrame_walkRoom i s).trans (slotFrame_examine i _)
    | exact slotFrame_walkRoom i s
    | exact slotFrame_examine i s
    | exact SlotFrame.refl i s

theorem slotFrame_powerOff (i : SlotId) (st : SlotState) (r : Reason) (s : State) :
    SlotFrame i s (powerOff i st r s) :=
  ((slotFrame_powerDown i s).trans (slotFrame_transition i st r _)).trans (slotFrame_followOn i _ _)

theorem slotFrame_removeCard (i : SlotId) (s : State) : SlotFrame i s (removeCard i s) :=
  (slotFrame_updSlot i s _).trans (slotFrame_powerOff i _ _ _)

theorem slotFrame_takeFault (i : SlotId) (code : Reason) (s : State) : SlotFrame i s (takeFault i code s) := by
  unfold takeFault
  dsimp only
  split
  · exact ((slotFrame_updSlot i s _).trans (slotFrame_powerOff i _ _ _)).trans (slotFrame_updSlot i _ _)
  · exact (slotFrame_updSlot i s _).trans (slotFrame_powerOff i _ _ _)

theorem slotFrame_toIdentifying (i : SlotId) (r : Reason) (s : State) : SlotFrame i s (toIdentifying i r s) :=
  ((slotFrame_transition i _ r s).trans (slotFrame_withdrawJob i _)).trans (slotFrame_issueJob i _ _)

theorem slotFrame_toContactState (i : SlotId) (s : State) : SlotFrame i s (toContactState i s) := by
  unfold toContactState
  split
  · exact slotFrame_toIdentifying i _ s
  · exact slotFrame_transition i _ _ s

/-- A slot joining the power queue is within its own frame. -/
theorem slotFrame_joinPower (i : SlotId) (p : Nat) (s : State) : SlotFrame i s
    { s with arbiter := { s.arbiter with queue := s.arbiter.queue ++ [{ slot := i, power := p }] } } := by
  constructor <;> first | rfl | (intros; assumption) | (intros; rfl) | skip
  intro j hj h
  simp only [List.map_append, List.map_cons, List.map_nil, List.mem_append, List.mem_singleton] at h
  exact h.resolve_right hj

theorem slotFrame_toPowerWait (i : SlotId) (s : State) : SlotFrame i s (toPowerWait i s) := by
  unfold toPowerWait
  dsimp only
  split
  · exact slotFrame_transition i _ _ s
  · exact ((slotFrame_transition i _ _ s).trans (slotFrame_joinPower i _ _)).trans (slotFrame_examine i _)

theorem slotFrame_toConsentWait (i : SlotId) (s : State) : SlotFrame i s (toConsentWait i s) :=
  (slotFrame_transition i _ _ s).trans (slotFrame_updSlot i _ _)

theorem slotFrame_toUnlocking (i : SlotId) (s : State) : SlotFrame i s (toUnlocking i s) :=
  ((slotFrame_transition i _ _ s).trans (slotFrame_updSlot i _ _)).trans (slotFrame_issueJob i _ _)

theorem slotFrame_admitCard (i : SlotId) (s : State) : SlotFrame i s (admitCard i s) := by
  unfold admitCard
  split
  · exact slotFrame_toUnlocking i s
  · exact slotFrame_toPowerWait i s

theorem slotFrame_pollStatus (i : SlotId) (s : State) : SlotFrame i s (pollStatus i s) :=
  (slotFrame_updSlot i s _).trans (slotFrame_issueJob i _ _)

theorem slotFrame_insertWindow (i : SlotId) (s : State) : SlotFrame i s (insertWindow i s) := by
  unfold insertWindow
  split
  · rename_i plan hplan
    obtain ⟨rank, window, _, _, _, rfl, _⟩ := tryPlace_some hplan
    refine SlotFrame.trans (b := { s with planner := { s.planner with
      plan := placeWindow { slot := i, rank := rank, window := window } s.planner.plan } }) ?_
      (slotFrame_transition i _ _ _)
    constructor <;> first | rfl | (intros; assumption) | (intros; rfl) | skip
    intro w hw _
    exact (mem_placeWindow _ _ _).2 (.inr hw)
  · refine SlotFrame.trans (b := { s with planner := { s.planner with room := s.planner.room ++ [i] } }) ?_
      (slotFrame_transition i _ _ _)
    constructor <;> first | rfl | (intros; assumption) | (intros; rfl) | skip
    intro j hj h
    simp only [List.mem_append, List.mem_singleton] at h
    exact h.resolve_right hj

theorem slotFrame_nextBlock (i : SlotId) (n : Fin 8) (s : State) : SlotFrame i s (nextBlock i n s) := by
  unfold nextBlock
  dsimp only
  split <;> exact slotFrame_issueJob i _ s

/-- A set's pin count changed. -/
theorem slotFrame_pins (i : SlotId) (n : Fin 8) (k : Nat) (s : State) :
    SlotFrame i s { s with sets := s.sets.set n { s.sets[n] with pins := k } } := by
  constructor <;> first | rfl | (intros; assumption) | (intros; rfl) | skip
  intro m
  by_cases h : n = m
  · subst h; simp
  · have hv : n.val ≠ m.val := fun e => h (Fin.ext e)
    simp [hv]

theorem slotFrame_startTransfer (i : SlotId) (n : Fin 8) (s : State) : SlotFrame i s (startTransfer i n s) := by
  unfold startTransfer
  have hpin := (slotFrame_updSlot i s fun c => { c with pin := some n, transferCount := 0 }).trans
    (slotFrame_pins i n (s.sets[n].pins + 1) _)
  dsimp only
  split
  · exact (hpin.trans (slotFrame_writeReason i _ _)).trans (slotFrame_nextBlock i n _)
  · exact hpin.trans (slotFrame_nextBlock i n _)

theorem slotFrame_examineSet (i : SlotId) (n : Fin 8) (s : State) : SlotFrame i s (examineSet i n s) := by
  unfold examineSet
  split
  · split
    · exact slotFrame_takeFault i _ s
    · exact slotFrame_startTransfer i n s
  · split
    · exact SlotFrame.refl i s
    · exact slotFrame_writeReason i _ s

end Sys2Proof.Machine
end

