-- ==== Sys2Proof/Laws/Entry.lean ====
section
/-!
SUPPORT. What a slot's event leaves behind: notices, transitions (`Entered`), the power-down actions (`PoweredDown`), faults
(`Faults`), entry to POWER_WAIT (`JoinsPower`), to IDENTIFYING (`Identifies`) and insertion (`Inserts`).
-/
namespace Sys2Proof.Machine

/-! ### Notices -/

theorem mem_placeNotice_self (n : Notice) (q : List Notice) : n ∈ placeNotice n q := by
  induction q with
  | nil => simp [placeNotice]
  | cons m q ih => unfold placeNotice; split <;> simp [ih]

theorem mem_placeNotice_of_ne {m n : Notice} {q : List Notice} (h : m ∈ q) (hs : m.source ≠ n.source) :
    m ∈ placeNotice n q := by
  induction q with
  | nil => simp at h
  | cons k q ih =>
    unfold placeNotice
    rcases List.mem_cons.1 h with rfl | hm
    · simp [hs]
    · split
      · exact List.mem_cons_of_mem _ hm
      · exact List.mem_cons_of_mem _ (ih hm)

theorem placeNotice_sources (n : Notice) (q : List Notice) : (placeNotice n q).map Notice.source =
    if n.source ∈ q.map Notice.source then q.map Notice.source else q.map Notice.source ++ [n.source] := by
  induction q with
  | nil => simp [placeNotice]
  | cons m q ih =>
    unfold placeNotice
    split
    · rename_i h; simp [h]
    · rename_i h
      simp only [List.map_cons, ih]
      have h' : n.source ≠ m.source := fun e => h e.symm
      split <;> simp_all

/-- A notice replaces the one its source had waiting, so each source has at most one. -/
theorem nodup_placeNotice {n : Notice} {q : List Notice} (h : (q.map Notice.source).Nodup) :
    ((placeNotice n q).map Notice.source).Nodup := by
  rw [placeNotice_sources]
  split
  · exact h
  · rename_i hn
    exact List.nodup_append.2 ⟨h, by simp, by intro a ha b hb; simp at hb; subst hb; intro e; exact hn (e ▸ ha)⟩

theorem filter_placeNotice (n : Notice) (q : List Notice) :
    (placeNotice n q).filter (fun m => decide (m.source ≠ n.source)) =
      q.filter fun m => decide (m.source ≠ n.source) := by
  induction q with
  | nil => simp [placeNotice]
  | cons m q ih =>
    unfold placeNotice
    split
    · rename_i h; simp [h]
    · rename_i h
      rw [List.filter_cons, List.filter_cons, ih]

theorem postSlot_posted (i : SlotId) (s : State) : (postSlot i s).posted i := by
  unfold State.posted postSlot
  exact mem_placeNotice_self _ _

/-! ### Events of other slots -/

/-- Slot i is untouched between two states: its record, its gate reports and its waiting notice stand. -/
structure Untouched (i : SlotId) (t u : State) : Prop where
  slot : u.slot i = t.slot i
  gate : u.recorder.gateReports.filter (fun g => decide (g.slot = i)) =
    t.recorder.gateReports.filter fun g => decide (g.slot = i)
  notices : ∀ n ∈ t.link.notices, n.source = .slot i → n ∈ u.link.notices

theorem Untouched.refl (i : SlotId) (s : State) : Untouched i s s := ⟨rfl, rfl, fun _ h _ => h⟩

theorem Untouched.trans {i : SlotId} {a b c : State} (h1 : Untouched i a b) (h2 : Untouched i b c) : Untouched i a c :=
  ⟨h2.slot.trans h1.slot, h2.gate.trans h1.gate, fun n hn hs => h2.notices n (h1.notices n hn hs) hs⟩

/-- A change of the blocks other than slots, recorder and link. -/
theorem Untouched.of_eq {i : SlotId} {t u : State} (h1 : u.slots = t.slots) (h2 : u.recorder = t.recorder)
    (h3 : u.link = t.link) : Untouched i t u :=
  ⟨slot_congr i h1, by rw [h2], fun _ h _ => by rw [h3]; exact h⟩

theorem untouched_updSlot {i j : SlotId} (f : Slot → Slot) (s : State) (h : i ≠ j) : Untouched i s (s.updSlot j f) :=
  ⟨slot_updSlot_ne s f h, rfl, fun _ hn _ => hn⟩

theorem untouched_transition {i j : SlotId} (st : SlotState) (r : Reason) (s : State) (h : i ≠ j) :
    Untouched i s (transition j st r s) where
  slot := slot_transition_ne j st r s h
  gate := by
    rw [transition_gateReports]
    have h' : j ≠ i := fun e => h e.symm
    split <;> simp [h']
  notices n hn hs := by
    simp only [transition, postSlot, postNotice_notices, reportGate_link, updSlot_link]
    apply mem_placeNotice_of_ne hn
    rw [hs]
    simpa [Notice.source] using h

theorem untouched_examineFrom (i : SlotId) (q : List PowerEntry) (h : i ∉ q.map PowerEntry.slot) :
    ∀ s : State, Untouched i s (examineFrom q s) := by
  induction q with
  | nil => intro s; exact Untouched.refl i s
  | cons e q ih =>
    intro s
    simp only [List.map_cons, List.mem_cons, not_or] at h
    unfold examineFrom
    split
    · refine Untouched.trans ?_ (ih h.2 _)
      exact Untouched.trans (b := { s with arbiter := { s.arbiter with
          committed := s.arbiter.committed + e.power, ramping := s.arbiter.ramping + 1, queue := q } })
        (Untouched.of_eq rfl rfl rfl)
        (Untouched.trans (untouched_transition (j := e.slot) .powering .none _ h.1) (untouched_updSlot (fun c =>
          { c with grant := true, overCurrentRun := 0, pgGoodRun := 0, pgLostRun := 0,
                   timers := { c.timers with ramp := some s.times.rampLimit } }) _ h.1))
    · exact Untouched.refl i s

theorem untouched_examine {i : SlotId} (s : State) (h : i ∉ s.arbiter.queue.map PowerEntry.slot) :
    Untouched i s (examine s) := untouched_examineFrom i _ h s

theorem untouched_walkFrom (i : SlotId) (q : List SlotId) (h : i ∉ q) : ∀ s : State, Untouched i s (walkFrom q s) := by
  induction q with
  | nil => intro s; exact Untouched.refl i s
  | cons k q ih =>
    intro s
    simp only [List.mem_cons, not_or] at h
    unfold walkFrom
    split
    · rename_i plan _
      refine Untouched.trans ?_ (ih h.2 _)
      exact Untouched.trans
        (b := { leaveRoom k s with planner := { (leaveRoom k s).planner with plan := plan } })
        (Untouched.of_eq rfl rfl rfl) (untouched_transition (j := k) .joining .none _ h.1)
    · exact ih h.2 s

theorem untouched_walkRoom {i : SlotId} (s : State) (h : i ∉ s.planner.room) : Untouched i s (walkRoom s) :=
  untouched_walkFrom i _ h s

theorem untouched_startJob (i : SlotId) (s : State) : Untouched i s (startJob s) := .of_eq (by simp) (by simp) (by simp)

theorem untouched_issueJob (i j : SlotId) (t : Transaction) (s : State) : Untouched i s (issueJob j t s) :=
  .of_eq (by simp) (by simp) (by simp)

/-! ### Entries -/

/-- The states that start a state timer (01 R27). -/
def SlotState.timed : SlotState → Bool
  | .consentWait | .powering | .resetHold | .readyWait | .cooldown => true
  | _ => false

theorem enter_linesFollow (c : Slot) (st : SlotState) (r : Reason) : (c.enter st r).linesFollow := by
  refine ⟨rfl, rfl, rfl, ?_⟩
  unfold Slot.enter standbyAfter
  dsimp only
  cases st.standbyOn <;> cases h : c.standby <;> simp

theorem enter_timersFollow (c : Slot) (st : SlotState) (r : Reason) (h : st.timed = false) :
    (c.enter st r).timersFollow := by
  cases st <;> simp_all [Slot.timersFollow, Slot.enter, StateTimers.idle, SlotState.timed]

theorem Entered.of_untouched {i : SlotId} {st : SlotState} {r : Reason} {k : Nat} {s t u : State}
    (h : Entered i st r k s t) (hu : Untouched i t u) : Entered i st r k s u where
  state := by rw [hu.slot]; exact h.state
  reason := by rw [hu.slot]; exact h.reason
  lines := by rw [hu.slot]; exact h.lines
  timers := by rw [hu.slot]; exact h.timers
  transitions := by rw [hu.slot]; exact h.transitions
  posted := by
    unfold State.posted
    rw [hu.slot]
    exact hu.notices _ h.posted rfl
  gate := by rw [hu.gate]; exact h.gate
  early := by rw [hu.slot]; exact h.early
  late := by rw [hu.slot]; exact h.late
  traceRef := by rw [hu.slot]; exact h.traceRef

/-- A transition into a state without a timer, measured from any state that agrees with it on the slot. -/
theorem entered_transition_of {i : SlotId} {st : SlotState} {r : Reason} {s s' : State} (ht : st.timed = false)
    (hst : (s'.slot i).state = (s.slot i).state) (htr : (s'.slot i).transitions = (s.slot i).transitions)
    (he : (s'.slot i).early = (s.slot i).early ∧ (s'.slot i).earlyRaw = (s.slot i).earlyRaw ∧
      (s'.slot i).debounceEarly = (s.slot i).debounceEarly)
    (hl : (s'.slot i).late = (s.slot i).late ∧ (s'.slot i).lateRaw = (s.slot i).lateRaw ∧
      (s'.slot i).debounceLate = (s.slot i).debounceLate)
    (href : (s'.slot i).traceRef = (s.slot i).traceRef) (hg : s'.recorder.gateReports = s.recorder.gateReports) :
    Entered i st r 1 s (transition i st r s') where
  state := by simp [Slot.enter]
  reason := by simp [Slot.enter]
  lines := by rw [slot_transition_self]; exact enter_linesFollow _ _ _
  timers := by rw [slot_transition_self]; exact enter_timersFollow _ _ _ ht
  transitions := by rw [slot_transition_self]; simp [Slot.enter, raised, saturate, htr]
  posted := postSlot_posted i _
  gate := by
    rw [transition_gateReports, hg, hst, List.filter_append]
    split <;> simp
  early := by rw [slot_transition_self]; exact he
  late := by rw [slot_transition_self]; exact hl
  traceRef := by rw [slot_transition_self]; exact href

theorem entered_transition {i : SlotId} {st : SlotState} {r : Reason} {s : State} (ht : st.timed = false) :
    Entered i st r 1 s (transition i st r s) :=
  entered_transition_of ht rfl rfl ⟨rfl, rfl, rfl⟩ ⟨rfl, rfl, rfl⟩ rfl rfl

/-- A transition reaches no other block. -/
theorem local_transition (i : SlotId) (st : SlotState) (r : Reason) (s : State) :
    Local i s (transition i st r s) where
  rest := by
    simp only [transition, postSlot, postNotice]
    unfold reportGate
    split <;> rfl
  recorder := transition_recorder i st r s
  link := by simp only [transition, postSlot, postNotice, reportGate_link, updSlot_link]
  notices := by
    simp only [transition, postSlot, postNotice_notices, reportGate_link, updSlot_link]
    exact (filter_placeNotice (Notice.slot i _ _ _ _) s.link.notices)
  slots j hj := slot_transition_ne i st r s hj

/-! ### The power-down actions -/

/-- A state whose slots are those of s with one replaced holds the replacement there. -/
theorem slot_of_set_self {s t : State} {i : SlotId} {c : Slot} (h : t.slots = s.slots.set i c) : t.slot i = c := by
  simp [State.slot, h]

theorem abortJob_slot (i : SlotId) (s : State) : ∃ completions, (abortJob i s).slot i =
    { s.slot i with inbox := { (s.slot i).inbox with completions := completions } } := by
  unfold abortJob
  split
  · split
    · rename_i cur _ hi
      split
      · subst hi
        simp only [endJob, slot_startJob]
        exact ⟨_, slot_of_set_self (s := s) rfl⟩
      · exact ⟨(s.slot i).inbox.completions, rfl⟩
    · exact ⟨(s.slot i).inbox.completions, rfl⟩
  · exact ⟨(s.slot i).inbox.completions, rfl⟩

theorem withdrawJob_slot (i : SlotId) (s : State) : ∃ completions, (withdrawJob i s).slot i =
    { s.slot i with inbox := { (s.slot i).inbox with completions := completions } } := by
  unfold withdrawJob
  dsimp only
  obtain ⟨q, hq⟩ := abortJob_slot i
    { s.updSlot i fun x => { x with inbox := { x.inbox with completions := [] } } with
      engine := { s.engine with
        queue := jobsWithout i s.engine.queue
        deferred := jobsWithout i s.engine.deferred } }
  have hs : (({ s.updSlot i fun x => { x with inbox := { x.inbox with completions := [] } } with
      engine := { s.engine with
        queue := jobsWithout i s.engine.queue
        deferred := jobsWithout i s.engine.deferred } } : State)).slot i =
      { s.slot i with inbox := { (s.slot i).inbox with completions := [] } } := slot_of_set_self (s := s) rfl
  rw [hs] at hq
  exact ⟨q, hq⟩

theorem releaseGrant_slot (i : SlotId) (s : State) : (releaseGrant i s).slot i = { s.slot i with grant := false } := by
  unfold releaseGrant
  dsimp only
  split
  · exact slot_of_set_self (s := s) rfl
  · rename_i h
    generalize s.slot i = c at h
    cases c
    simp_all

/-- What a transfer's end makes of its slot. -/
theorem endTransfer_slot (i : SlotId) (n : Nat) (s : State) : (endTransfer i n s).slot i =
    match (s.slot i).pin with
    | none => s.slot i
    | some k => { s.slot i with wordsWritten := n, residual := s.sets[k].length - n, pin := none } := by
  unfold endTransfer
  cases h : (s.slot i).pin with
  | none => rfl
  | some k => exact slot_of_set_self (s := s) rfl

end Sys2Proof.Machine
end

