-- ==== Sys2Proof/Laws/Actions.lean ====
section
/-!
SUPPORT. What each shared action of a slot does, once and whole: the power-down actions and a transition with them, a fault,
an insertion, the entries of IDENTIFYING and POWER_WAIT, the start of a transfer.
-/
namespace Sys2Proof.Machine

/-! ### The power-down actions -/

/-- The slot's record after the power-down actions (01 R9, 06 R118). -/

theorem powerDown_slot (i : SlotId) (s : State) : ∃ completions, (powerDown i s).slot i =
    { s.slot i with
      grant := false
      pin := none
      threshold := none
      wordsWritten := if (s.slot i).pin.isSome then (s.slot i).transferCount else (s.slot i).wordsWritten
      residual := match (s.slot i).pin with
        | none => (s.slot i).residual
        | some n => s.sets[n].length - (s.slot i).transferCount
      inbox := { (s.slot i).inbox with completions := completions, adoptionReports := 0, outcomes := [] } } := by
  obtain ⟨q, hq⟩ := withdrawJob_slot i (leavePowerQueue i (releaseGrant i (leaveRoom i (withdrawWindow i (muteWindow i s)))))
  refine ⟨q, ?_⟩
  simp only [slot_leavePowerQueue, releaseGrant_slot, slot_leaveRoom, slot_withdrawWindow, slot_muteWindow] at hq
  unfold powerDown dropChecks cutTransfer
  rw [slot_updSlot_self, endTransfer_slot, hq]
  cases h : (s.slot i).pin with
  | none => simp
  | some n => simp

theorem powerDown_planner (i : SlotId) (s : State) : (powerDown i s).planner = { s.planner with
    plan := s.planner.plan.filter fun w => decide (w.slot ≠ i)
    room := s.planner.room.filter fun j => decide (j ≠ i) } := by
  simp [powerDown, dropChecks, leaveRoom, withdrawWindow, muteWindow]

theorem powerDown_sequencer (i : SlotId) (s : State) : (powerDown i s).sequencer = { s.sequencer with
    active := s.sequencer.active.map fun w => if w.slot = i then { w with muted := true } else w
    run := s.sequencer.run.filter fun run => decide (run.slot ≠ i) } := by
  simp [powerDown, dropChecks, muteWindow]

theorem powerDown_queue (i : SlotId) (s : State) : (powerDown i s).arbiter.queue =
    s.arbiter.queue.filter fun e => decide (e.slot ≠ i) := by
  simp [powerDown, dropChecks, leavePowerQueue]

theorem powerDown_engine (i : SlotId) (s : State) : (powerDown i s).engine =
    (withdrawJob i (leavePowerQueue i (releaseGrant i (leaveRoom i (withdrawWindow i (muteWindow i s)))))).engine := by
  simp [powerDown, dropChecks]

theorem not_mem_jobsWithout (i : SlotId) (jobs : List Job) : i ∉ (jobsWithout i jobs).map Job.slot := by
  simp [jobsWithout]

theorem startJob_deferred (s : State) : (startJob s).engine.deferred = s.engine.deferred := by
  unfold startJob; split <;> rfl

/-- An idle engine takes its current job from the queue: a slot with nothing queued has no part in either. -/
theorem startJob_lacks {i : SlotId} {s : State} (idle : s.engine.current = none)
    (queued : i ∉ s.engine.queue.map Job.slot) : i ∉ (startJob s).engine.queue.map Job.slot ∧
      ∀ cur, (startJob s).engine.current = some cur → cur.job.slot ≠ i := by
  unfold startJob
  rw [idle]
  cases hq : s.engine.queue with
  | nil => simp [idle, hq]
  | cons j q =>
    rw [hq] at queued
    simp only [List.map_cons, List.mem_cons, not_or] at queued
    refine ⟨queued.2, ?_⟩
    intro cur hcur
    simp only [Option.some.injEq] at hcur
    subst hcur
    exact fun h => queued.1 h.symm

/-- The engine after a withdrawal: nothing of the slot but a job under abort (02 R43, R44). -/
theorem withdrawJob_engine (i : SlotId) (s : State) :
    i ∉ (withdrawJob i s).engine.queue.map Job.slot ∧ i ∉ (withdrawJob i s).engine.deferred.map Job.slot ∧
      ∀ cur, (withdrawJob i s).engine.current = some cur → cur.job.slot = i → cur.abort = true := by
  unfold withdrawJob abortJob
  dsimp only
  split
  · rename_i cur hcur
    split
    · rename_i hslot
      split
      · unfold endJob
        dsimp only
        refine ⟨(startJob_lacks (i := i) rfl ?_).1, ?_, ?_⟩
        · simp [sendCompletion, jobsWithout, hslot]
        · rw [startJob_deferred]
          simp [sendCompletion, jobsWithout, hslot]
        · intro c hc h
          refine absurd h ((startJob_lacks (i := i) rfl ?_).2 c hc)
          simp [sendCompletion, jobsWithout, hslot]
      · refine ⟨not_mem_jobsWithout i _, not_mem_jobsWithout i _, ?_⟩
        intro c hc _
        simp only [Option.some.injEq] at hc
        subst hc
        exact requestAbort_abort _ _
    · rename_i hslot
      refine ⟨not_mem_jobsWithout i _, not_mem_jobsWithout i _, ?_⟩
      intro c hc h
      rw [hcur] at hc
      cases hc
      exact absurd h hslot
  · rename_i hnone
    refine ⟨not_mem_jobsWithout i _, not_mem_jobsWithout i _, ?_⟩
    intro c hc _
    rw [hnone] at hc
    cases hc

/-- A withdrawal puts an abort request to the slot's open transaction (02 R43, R44). -/
theorem withdrawJob_reading {i : SlotId} {s : State} {cur : CurrentJob} (hc : s.engine.current = some cur)
    (hi : cur.job.slot = i) (hh : cur.held = false) :
    (withdrawJob i s).engine.current = some (cur.requestAbort s.sets) := by
  simp [withdrawJob, abortJob, hc, hi, hh]

/-- A slot's own window is what a placement adds (08 R142). -/
theorem mem_tryPlace {k : SlotId} {s : State} {plan : List PlanWindow} (h : tryPlace k s = some plan) {v : PlanWindow}
    (hv : v ∈ plan) : v.slot = k ∨ v ∈ s.planner.plan := by
  unfold tryPlace at h
  split at h
  · cases h
  · dsimp only at h
    split at h
    · cases h
      rcases (mem_placeWindow _ _ _).1 hv with e | e
      · exact Or.inl (by rw [e])
      · exact Or.inr e
    · cases h
  · cases h

/-- A walk of the room queue brings no window of a slot that does not wait there, and no slot into the queue. -/
theorem walkFrom_lacks {i : SlotId} (q : List SlotId) (h : i ∉ q) : ∀ s : State,
    i ∉ s.planner.plan.map PlanWindow.slot → i ∉ s.planner.room →
      i ∉ (walkFrom q s).planner.plan.map PlanWindow.slot ∧ i ∉ (walkFrom q s).planner.room := by
  induction q with
  | nil => intro s hp hr; exact ⟨hp, hr⟩
  | cons k q ih =>
    intro s hp hr
    simp only [List.mem_cons, not_or] at h
    unfold walkFrom
    split
    · rename_i plan hplan
      refine ih h.2 _ ?_ ?_
      · simp only [joinPlan, transition_planner]
        intro hm
        obtain ⟨w, hw, rfl⟩ := List.mem_map.1 hm
        rcases mem_tryPlace hplan hw with e | e
        · exact h.1 e
        · exact hp (List.mem_map_of_mem e)
      · simp only [joinPlan, transition_planner, leaveRoom]
        exact fun hm => hr (List.mem_filter.1 hm).1
    · exact ih h.2 s hp hr

/-- What follows a power-down leaves alone a slot that stands in no queue. -/
theorem untouched_followOn {i k : SlotId} {before s : State} (hr : i ∉ s.planner.room)
    (hq : i ∉ s.arbiter.queue.map PowerEntry.slot) : Untouched i s (followOn k before s) := by
  unfold followOn
  dsimp only
  split <;> split
  · exact (untouched_walkRoom s hr).trans (untouched_examine _ (by rwa [walkRoom_arbiter]))
  · exact untouched_examine s hq
  · exact untouched_walkRoom s hr
  · exact Untouched.refl i s

theorem followOn_lacks {i k : SlotId} {before s : State} (hp : i ∉ s.planner.plan.map PlanWindow.slot)
    (hr : i ∉ s.planner.room) (hq : i ∉ s.arbiter.queue.map PowerEntry.slot) :
    i ∉ (followOn k before s).planner.plan.map PlanWindow.slot ∧ i ∉ (followOn k before s).planner.room ∧
      i ∉ (followOn k before s).arbiter.queue.map PowerEntry.slot := by
  have hx : ∀ u : State, i ∉ u.arbiter.queue.map PowerEntry.slot →
      i ∉ (examine u).arbiter.queue.map PowerEntry.slot := fun u hu hm => by
    obtain ⟨e, he, rfl⟩ := List.mem_map.1 hm
    exact hu (List.mem_map_of_mem ((examine_arbiter u).1.subset he))
  have hw := walkFrom_lacks s.planner.room hr s hp hr
  unfold followOn
  dsimp only
  split <;> split
  · rw [examine_planner]
    exact ⟨hw.1, hw.2, hx _ (by rwa [walkRoom_arbiter])⟩
  · rw [examine_planner]
    exact ⟨hp, hr, hx _ hq⟩
  · exact ⟨hw.1, hw.2, by rwa [walkRoom_arbiter]⟩
  · exact ⟨hp, hr, hq⟩

/-- The power-down actions do what 01 R9 says. -/
theorem poweredDown_powerDown (i : SlotId) (s : State) : PoweredDown i s (powerDown i s) := by
  obtain ⟨q, hslot⟩ := powerDown_slot i s
  obtain ⟨e1, e2, e3⟩ := withdrawJob_engine i
    (leavePowerQueue i (releaseGrant i (leaveRoom i (withdrawWindow i (muteWindow i s)))))
  rw [← powerDown_engine] at e1 e2 e3
  constructor
  · rw [hslot]
  · rw [hslot]
  · rw [hslot]
  · rw [powerDown_planner]; simp
  · rw [powerDown_sequencer]
    simp only [runsIn, List.any_map, List.any_eq_false, Function.comp_apply]
    intro w _
    split <;> simp_all
  · unfold State.sel
    rw [powerDown_sequencer]
    cases h : s.sequencer.run with
    | none => simp
    | some r =>
      by_cases hr : r.slot = i <;> simp [Option.filter, hr]
  · rw [powerDown_queue]; simp
  · rw [powerDown_planner]; simp
  · exact e1
  · exact e2
  · exact e3
  · intro cur hc hi hh
    rw [powerDown_engine, withdrawJob_reading (cur := cur) (by simpa using hc) hi hh]
    simp
  · intro n hn
    rw [hslot]
    simp [hn]
  · intro hn
    rw [hslot]
    simp [hn]

/-- A transition and what follows it undo none of the power-down actions. -/
theorem poweredDown_powerOff (i : SlotId) (st : SlotState) (r : Reason) (s : State) :
    PoweredDown i s (powerOff i st r s) := by
  have h := poweredDown_powerDown i s
  have hp : i ∉ (transition i st r (powerDown i s)).planner.plan.map PlanWindow.slot := by
    rw [transition_planner]; exact h.planned
  have hr : i ∉ (transition i st r (powerDown i s)).planner.room := by
    rw [transition_planner]; exact h.roomQueue
  have hq : i ∉ (transition i st r (powerDown i s)).arbiter.queue.map PowerEntry.slot := by
    rw [transition_arbiter]; exact h.powerQueue
  have hl := followOn_lacks (k := i) (before := s) hp hr hq
  have hs : (powerOff i st r s).slot i = ((powerDown i s).slot i).enter st r := by
    unfold powerOff
    rw [(untouched_followOn hr hq).slot, slot_transition_self]
  have he : (powerOff i st r s).engine = (powerDown i s).engine := by simp [powerOff]
  have hsq : (powerOff i st r s).sequencer = (powerDown i s).sequencer := by simp [powerOff]
  constructor
  · rw [hs]; exact h.grant
  · rw [hs]; exact h.pin
  · rw [hs]; exact h.threshold
  · exact hl.1
  · rw [hsq]; exact h.muted
  · unfold State.sel; rw [hsq]; exact h.sel
  · exact hl.2.2
  · exact hl.2.1
  · rw [he]; exact h.queued
  · rw [he]; exact h.deferred
  · rw [he]; exact h.aborted
  · rw [he]; exact h.reading
  · rw [hs]; exact h.cut
  · rw [hs]; exact h.uncut

/-- The slot's record after a transition with the power-down actions. -/
theorem slot_powerOff (i : SlotId) (st : SlotState) (r : Reason) (s : State) :
    (powerOff i st r s).slot i = ((powerDown i s).slot i).enter st r := by
  have h := poweredDown_powerDown i s
  unfold powerOff
  rw [(untouched_followOn (by rw [transition_planner]; exact h.roomQueue)
    (by rw [transition_arbiter]; exact h.powerQueue)).slot, slot_transition_self]

@[simp] theorem powerDown_gateReports (i : SlotId) (s : State) :
    (powerDown i s).recorder.gateReports = s.recorder.gateReports := by
  simp [powerDown, dropChecks, leavePowerQueue, leaveRoom, withdrawWindow, muteWindow]

/-- A transition with the power-down actions enters its state (01 R3, R4, R9, R27, R28). -/
theorem entered_powerOff {i : SlotId} {st : SlotState} {r : Reason} {s : State} (ht : st.timed = false) :
    Entered i st r 1 s (powerOff i st r s) := by
  have h := poweredDown_powerDown i s
  obtain ⟨q, hslot⟩ := powerDown_slot i s
  refine Entered.of_untouched (t := transition i st r (powerDown i s)) ?_
    (untouched_followOn (by rw [transition_planner]; exact h.roomQueue)
      (by rw [transition_arbiter]; exact h.powerQueue))
  exact entered_transition_of ht (by rw [hslot]) (by rw [hslot]) (by rw [hslot]; exact ⟨rfl, rfl, rfl⟩)
    (by rw [hslot]; exact ⟨rfl, rfl, rfl⟩) (by rw [hslot]) (powerDown_gateReports i s)

/-! ### Faults, insertions, and the entries of IDENTIFYING and POWER_WAIT -/

theorem keeps_powerOff (i : SlotId) (st : SlotState) (r : Reason) (s : State) (h : st.clearsScreening = false) :
    Keeps i s (powerOff i st r s) := by
  obtain ⟨q, hslot⟩ := powerDown_slot i s
  constructor <;> rw [slot_powerOff, hslot] <;> simp [Slot.enter, h]

theorem Entered.of_counted {i : SlotId} {st : SlotState} {r : Reason} {k : Nat} {s t : State} {n : Nat}
    (h : Entered i st r k (s.updSlot i fun c => { c with faultCount := n }) t) : Entered i st r k s t where
  state := h.state
  reason := h.reason
  lines := h.lines
  timers := h.timers
  transitions := by simpa using h.transitions
  posted := h.posted
  gate := by simpa using h.gate
  early := by simpa using h.early
  late := by simpa using h.late
  traceRef := by simpa using h.traceRef

theorem PoweredDown.of_counted {i : SlotId} {s t : State} {n : Nat}
    (h : PoweredDown i (s.updSlot i fun c => { c with faultCount := n }) t) : PoweredDown i s t where
  grant := h.grant
  pin := h.pin
  threshold := h.threshold
  planned := h.planned
  muted := h.muted
  sel := h.sel
  powerQueue := h.powerQueue
  roomQueue := h.roomQueue
  queued := h.queued
  deferred := h.deferred
  aborted := h.aborted
  reading := h.reading
  cut := by simpa using h.cut
  uncut := by simpa using h.uncut

/-- A transition into a state that starts a timer, with what follows it elsewhere and the timers it starts. -/
theorem entered_timed {i : SlotId} {st : SlotState} {r : Reason} {s s' t : State} {T : StateTimers}
    (hT : ∀ c : Slot, ({ c.enter st r with timers := T } : Slot).timersFollow)
    (hst : (s'.slot i).state = (s.slot i).state) (htr : (s'.slot i).transitions = (s.slot i).transitions)
    (he : (s'.slot i).early = (s.slot i).early ∧ (s'.slot i).earlyRaw = (s.slot i).earlyRaw ∧
      (s'.slot i).debounceEarly = (s.slot i).debounceEarly)
    (hl : (s'.slot i).late = (s.slot i).late ∧ (s'.slot i).lateRaw = (s.slot i).lateRaw ∧
      (s'.slot i).debounceLate = (s.slot i).debounceLate)
    (href : (s'.slot i).traceRef = (s.slot i).traceRef) (hg : s'.recorder.gateReports = s.recorder.gateReports)
    (hu : Untouched i (transition i st r s') t) :
    Entered i st r 1 s (t.updSlot i fun c => { c with timers := T }) := by
  have hs : t.slot i = (s'.slot i).enter st r := by rw [hu.slot, slot_transition_self]
  constructor
  · rw [slot_updSlot_self, hs]; rfl
  · rw [slot_updSlot_self, hs]; rfl
  · rw [slot_updSlot_self, hs]; exact enter_linesFollow (s'.slot i) st r
  · rw [slot_updSlot_self, hs]; exact hT _
  · rw [slot_updSlot_self, hs]; simp [Slot.enter, raised, saturate, htr]
  · have hp := hu.notices _ (postSlot_posted i (reportGate i (s'.slot i).state st
      (s'.updSlot i fun c => c.enter st r))) rfl
    unfold State.posted
    rw [slot_updSlot_self, hs]
    simpa using hp
  · have h := hu.gate
    rw [transition_gateReports, hg, hst] at h
    rw [updSlot_recorder, h, List.filter_append]
    split <;> simp
  · rw [slot_updSlot_self, hs]; exact he
  · rw [slot_updSlot_self, hs]; exact hl
  · rw [slot_updSlot_self, hs]; exact href

theorem updSlot_congr {i : SlotId} (s : State) (f : Slot → Slot) {g : Slot → Slot} (h : f (s.slot i) = g (s.slot i)) :
    s.updSlot i f = s.updSlot i g := by unfold State.updSlot; rw [h]

/-- A fault does what 01 R15 and R16 say. -/
theorem faults_takeFault (i : SlotId) (code : Reason) (s : State) : Faults i code 1 s (takeFault i code s) := by
  have hframe := slotFrame_takeFault i code s
  have hcount : (s.updSlot i fun c => { c with faultCount := saturate 255 c.faultCount }) =
      s.updSlot i fun c => { c with faultCount := saturate 255 (s.slot i).faultCount } := rfl
  have hk : ∀ st, st.clearsScreening = false →
      Keeps i (s.updSlot i fun c => { c with faultCount := saturate 255 c.faultCount })
        (powerOff i st code (s.updSlot i fun c => { c with faultCount := saturate 255 c.faultCount })) :=
    fun st h => keeps_powerOff i st code _ h
  have hp : ∀ st, PoweredDown i s
      (powerOff i st code (s.updSlot i fun c => { c with faultCount := saturate 255 c.faultCount })) := fun st => by
    have h := poweredDown_powerOff i st code (s.updSlot i fun c => { c with faultCount := saturate 255 c.faultCount })
    rw [hcount] at h ⊢
    exact h.of_counted
  unfold takeFault at hframe ⊢
  dsimp only at hframe ⊢
  split at hframe
  · rename_i hc
    rw [if_pos hc]
    simp only [Bool.and_eq_true, decide_eq_true_eq, slot_updSlot_self] at hc
    have k := hk .cooldown rfl
    have p := hp .cooldown
    refine ⟨hframe, ?_, ?_, ?_, ?_, ?_, ?_⟩
    · exact ⟨by rw [slot_updSlot_self]; exact p.grant, by rw [slot_updSlot_self]; exact p.pin,
        by rw [slot_updSlot_self]; exact p.threshold, p.planned, p.muted, p.sel, p.powerQueue, p.roomQueue, p.queued,
        p.deferred, p.aborted, p.reading, by rw [slot_updSlot_self]; exact p.cut, by rw [slot_updSlot_self]; exact p.uncut⟩
    · rw [slot_updSlot_self]
      refine k.faultCount.trans ?_
      rw [slot_updSlot_self]
      rfl
    · rw [slot_updSlot_self]
      refine k.allowance.trans ?_
      rw [slot_updSlot_self]
    · rw [slot_updSlot_self]
      refine k.screening.trans ?_
      rw [slot_updSlot_self]
    · intro _ _
      have hd := poweredDown_powerDown i (s.updSlot i fun c => { c with faultCount := saturate 255 c.faultCount })
      obtain ⟨q, hslot⟩ :=
        powerDown_slot i (s.updSlot i fun c => { c with faultCount := saturate 255 c.faultCount })
      have hu := untouched_followOn (i := i) (k := i)
        (before := s.updSlot i fun c => { c with faultCount := saturate 255 c.faultCount })
        (s := transition i .cooldown code
          (powerDown i (s.updSlot i fun c => { c with faultCount := saturate 255 c.faultCount })))
        (by rw [transition_planner]; exact hd.roomQueue) (by rw [transition_arbiter]; exact hd.powerQueue)
      have e := entered_timed (s := s) (T := { StateTimers.idle with cooldown := some s.times.cooldown })
        (fun c => by simp [Slot.timersFollow, Slot.enter, StateTimers.idle])
        (by rw [hslot, slot_updSlot_self]) (by rw [hslot, slot_updSlot_self])
        (by rw [hslot, slot_updSlot_self]; exact ⟨rfl, rfl, rfl⟩)
        (by rw [hslot, slot_updSlot_self]; exact ⟨rfl, rfl, rfl⟩) (by rw [hslot, slot_updSlot_self])
        (by rw [powerDown_gateReports, updSlot_recorder]) hu
      refine ⟨?_, ?_⟩
      · rw [updSlot_congr _ _ (g := fun c =>
          { c with timers := { StateTimers.idle with cooldown := some s.times.cooldown } })]
        · exact e
        · rw [slot_powerOff]; rfl
      · rw [slot_updSlot_self]
    · intro h
      rw [slot_updSlot_self, k.faultCount, slot_updSlot_self] at h
      rcases h with h | h
      · rw [hc.1] at h; cases h
      · exact absurd hc.2 (Nat.not_le.2 h)
  · rename_i hc
    rw [if_neg hc]
    simp only [Bool.and_eq_true, decide_eq_true_eq, slot_updSlot_self] at hc
    have k := hk .faulted rfl
    refine ⟨hframe, hp .faulted, ?_, ?_, ?_, ?_, ?_⟩
    · refine k.faultCount.trans ?_
      rw [slot_updSlot_self]
      rfl
    · refine k.allowance.trans ?_
      rw [slot_updSlot_self]
    · refine k.screening.trans ?_
      rw [slot_updSlot_self]
    · intro h1 h2
      refine absurd ⟨h1, ?_⟩ hc
      rw [k.faultCount, slot_updSlot_self] at h2
      exact h2
    · intro _
      have e := entered_powerOff (i := i) (st := .faulted) (r := code)
        (s := s.updSlot i fun c => { c with faultCount := saturate 255 c.faultCount }) rfl
      rw [hcount] at e ⊢
      exact e.of_counted

theorem keeps_transition (i : SlotId) (st : SlotState) (r : Reason) (s : State) (h : st.clearsScreening = false) :
    Keeps i s (transition i st r s) := by
  constructor <;> rw [slot_transition_self] <;> simp [Slot.enter, h]

theorem tryPlace_off {i : SlotId} {s : State} (h : s.planner.settings.mode = .off) : tryPlace i s = none := by
  unfold tryPlace; rw [h]

theorem tryPlace_on {i : SlotId} {s : State} {rank : Nat} {window : Descriptor} (hm : s.planner.settings.mode ≠ .off)
    (hr : (s.slot i).screening.rank = some rank) (hw : (s.slot i).screening.window = some window) :
    tryPlace i s =
      let plan := placeWindow { slot := i, rank := rank, window := window } s.planner.plan
      if planFits s.planner.settings plan then some plan else none := by
  unfold tryPlace
  rw [hr, hw]
  cases h : s.planner.settings.mode with
  | off => exact absurd h hm
  | master => rfl
  | follower => rfl

theorem tryPlace_waits {i : SlotId} {s : State}
    (h : s.planner.settings.mode = .off ∨ ∃ rank window, (s.slot i).screening.rank = some rank ∧
      (s.slot i).screening.window = some window ∧
      planFits s.planner.settings (placeWindow { slot := i, rank := rank, window := window } s.planner.plan) = false) :
    tryPlace i s = none := by
  by_cases hm : s.planner.settings.mode = .off
  · exact tryPlace_off hm
  · rcases h with h | ⟨rank, window, hr, hw, hf⟩
    · exact tryPlace_off h
    · rw [tryPlace_on hm hr hw]
      simp [hf]

/-- An insertion does what 08 R142 says. -/
theorem inserts_insertWindow (i : SlotId) (s : State) : Inserts i s (insertWindow i s) := by
  refine ⟨slotFrame_insertWindow i s, ?_, ?_, ?_⟩
  · unfold insertWindow joinPlan
    split
    · rename_i plan _
      have k := keeps_transition i .joining .none { s with planner := { s.planner with plan := plan } } rfl
      exact ⟨k.1, k.2, k.3⟩
    · have k := keeps_transition i .roomWait .noRoom
        { s with planner := { s.planner with room := s.planner.room ++ [i] } } rfl
      exact ⟨k.1, k.2, k.3⟩
  · intro rank window hm hr hw hf
    unfold insertWindow joinPlan
    rw [tryPlace_on hm hr hw]
    simp only [hf, if_true]
    exact ⟨entered_transition_of rfl rfl rfl ⟨rfl, rfl, rfl⟩ ⟨rfl, rfl, rfl⟩ rfl rfl, by rw [transition_planner]⟩
  · intro h
    unfold insertWindow
    rw [tryPlace_waits h]
    exact ⟨entered_transition_of rfl rfl rfl ⟨rfl, rfl, rfl⟩ ⟨rfl, rfl, rfl⟩ rfl rfl, by rw [transition_planner]⟩

/-- A job issued by a slot is in the engine, and no other of that slot but the one in progress (02 R40, R41, R46). -/
theorem issueJob_jobs {i : SlotId} {t : Transaction} {s : State}
    (hq : i ∉ s.engine.queue.map Job.slot) (hd : i ∉ s.engine.deferred.map Job.slot)
    (hc : ∀ cur, s.engine.current = some cur → cur.job.slot = i → cur.abort = true) :
    { slot := i, transaction := t } ∈ (issueJob i t s).engine.jobs ∧
      (∀ j ∈ (issueJob i t s).engine.queue ++ (issueJob i t s).engine.deferred, j.slot = i → j.transaction = t) ∧
      ∀ cur, (issueJob i t s).engine.current = some cur → cur.job.slot = i → cur.abort = true ∨
        cur.job.transaction = t := by
  have nq : ∀ j ∈ s.engine.queue, j.slot ≠ i := fun j hj e => hq (e ▸ List.mem_map_of_mem hj)
  have nd : ∀ j ∈ s.engine.deferred, j.slot ≠ i := fun j hj e => hd (e ▸ List.mem_map_of_mem hj)
  unfold issueJob
  split
  · refine ⟨by simp [Engine.jobs], ?_, fun cur h1 h2 => Or.inl (hc cur h1 h2)⟩
    intro j hj hs
    simp only [List.mem_append, List.mem_singleton, jobsWithout, List.mem_filter] at hj
    rcases hj with h | h | h
    · exact absurd hs (nq j h)
    · exact absurd hs (nd j h.1)
    · rw [h]
  · unfold startJob
    dsimp only
    split
    · rename_i h1 j q h2
      rcases hs : s.engine.queue with _ | ⟨k, rest⟩
      · rw [hs] at h2
        simp only [List.nil_append, List.cons.injEq] at h2
        obtain ⟨rfl, rfl⟩ := h2
        refine ⟨by simp [Engine.jobs], ?_, ?_⟩
        · intro j hj e
          exact absurd e (nd j (by simpa using hj))
        · intro cur hcur _
          simp only [Option.some.injEq] at hcur
          exact Or.inr (by rw [← hcur])
      · rw [hs] at h2 nq
        simp only [List.cons_append, List.cons.injEq] at h2
        obtain ⟨rfl, rfl⟩ := h2
        refine ⟨by simp [Engine.jobs], ?_, ?_⟩
        · intro j hj e
          simp only [List.mem_append, List.mem_singleton] at hj
          rcases hj with (h | h) | h
          · exact absurd e (nq j (List.mem_cons_of_mem _ h))
          · rw [h]
          · exact absurd e (nd j h)
        · intro cur hcur e
          simp only [Option.some.injEq] at hcur
          rw [← hcur] at e
          exact absurd e (nq _ List.mem_cons_self)
    · refine ⟨by simp [Engine.jobs], ?_, fun cur h1 h2 => Or.inl (hc cur h1 h2)⟩
      intro j hj hs
      simp only [List.mem_append, List.mem_singleton] at hj
      rcases hj with (h | h) | h
      · exact absurd hs (nq j h)
      · rw [h]
      · exact absurd hs (nd j h)

/-- What waits for a slot is no part of its entry of a state. -/
theorem Entered.of_completions {i : SlotId} {st : SlotState} {r : Reason} {k : Nat} {s t u : State}
    (h : Entered i st r k s t) (hs : ∃ q, u.slot i = { t.slot i with inbox := { (t.slot i).inbox with completions := q } })
    (hr : u.recorder = t.recorder) (hl : u.link = t.link) : Entered i st r k s u := by
  obtain ⟨q, hs⟩ := hs
  constructor
  · rw [hs]; exact h.state
  · rw [hs]; exact h.reason
  · rw [hs]; exact h.lines
  · rw [hs]; exact h.timers
  · rw [hs]; exact h.transitions
  · unfold State.posted; rw [hs, hl]; exact h.posted
  · rw [hr]; exact h.gate
  · rw [hs]; exact h.early
  · rw [hs]; exact h.late
  · rw [hs]; exact h.traceRef

/-- A withdrawal reaches the engine and the slots' waiting completions, nothing else. -/
theorem withdrawJob_local (i : SlotId) (s : State) :
    { withdrawJob i s with slots := s.slots, engine := s.engine } = s := by
  unfold withdrawJob abortJob
  dsimp only
  split
  · split
    · split
      · unfold endJob startJob
        dsimp only
        split <;> rfl
      · rfl
    · rfl
  · rfl

theorem issueJob_local (i : SlotId) (t : Transaction) (s : State) : { issueJob i t s with engine := s.engine } = s := by
  unfold issueJob startJob
  dsimp only
  split
  · rfl
  · split <;> rfl

/-- An entry of IDENTIFYING does what 01 R7 says. -/
theorem identifies_toIdentifying (i : SlotId) (r : Reason) (s : State) :
    Identifies i r 1 s (toIdentifying i r s) := by
  obtain ⟨q, hslot⟩ := withdrawJob_slot i (transition i .identifying r s)
  obtain ⟨e1, e2, e3⟩ := withdrawJob_engine i (transition i .identifying r s)
  obtain ⟨j1, j2, j3⟩ := issueJob_jobs (t := .identRead 0 8) e1 e2 e3
  have hl := local_transition i .identifying r s
  have hw : (toIdentifying i r s).recorder = (transition i .identifying r s).recorder ∧
      (toIdentifying i r s).link = (transition i .identifying r s).link := by
    unfold toIdentifying
    rw [issueJob_recorder, withdrawJob_recorder, issueJob_link, withdrawJob_link]
    exact ⟨rfl, rfl⟩
  refine ⟨slotFrame_toIdentifying i r s, ?_, ?_, ?_, j1, j2, j3⟩
  · constructor
    · have h1 := issueJob_local i (.identRead 0 8) (withdrawJob i (transition i .identifying r s))
      have h2 := withdrawJob_local i (transition i .identifying r s)
      have h3 := hl.rest
      have he := transition_engine i .identifying r s
      generalize htr : transition i .identifying r s = a at *
      generalize hwd : withdrawJob i a = b at *
      unfold toIdentifying
      rw [htr, hwd]
      generalize issueJob i (.identRead 0 8) b = c at *
      rw [← h1] at h2
      rw [← h2] at h3
      refine Eq.trans ?_ h3
      rw [← he]
    · rw [show (toIdentifying i r s).recorder = _ from hw.1]; exact hl.recorder
    · rw [show (toIdentifying i r s).link = _ from hw.2]; exact hl.link
    · rw [show (toIdentifying i r s).link = _ from hw.2]; exact hl.notices
    · intro j hj
      have : (toIdentifying i r s).slot j = s.slot j := by
        unfold toIdentifying
        rw [slot_issueJob, slot_withdrawJob_ne i _ hj, slot_transition_ne i _ _ _ hj]
      exact this
  · refine (entered_transition rfl).of_completions ⟨q, ?_⟩ hw.1 hw.2
    unfold toIdentifying
    rw [slot_issueJob, hslot]
  · unfold toIdentifying
    rw [slot_issueJob, hslot, slot_transition_self]
    rfl

theorem Keeps.trans {i : SlotId} {a b c : State} (h1 : Keeps i a b) (h2 : Keeps i b c) : Keeps i a c :=
  ⟨h2.1.trans h1.1, h2.2.trans h1.2, h2.3.trans h1.3⟩

theorem keeps_grantPower (i : SlotId) (e : PowerEntry) (rest : List PowerEntry) (s : State) :
    Keeps i s (grantPower e rest s) := by
  unfold grantPower
  by_cases h : i = e.slot
  · subst h
    have k := keeps_transition e.slot .powering .none { s with arbiter := { s.arbiter with
      committed := s.arbiter.committed + e.power, ramping := s.arbiter.ramping + 1, queue := rest } } rfl
    constructor <;> rw [slot_updSlot_self]
    · exact k.1
    · exact k.2
    · exact k.3
  · constructor <;> rw [slot_updSlot_ne _ _ h, slot_transition_ne _ _ _ _ h] <;> rfl

/-- Grants touch no unlock allowance, fault count or screening result. -/
theorem keeps_examine (i : SlotId) (s : State) : Keeps i s (examine s) := by
  unfold examine
  generalize s.arbiter.queue = q
  induction q generalizing s with
  | nil => exact ⟨rfl, rfl, rfl⟩
  | cons e q ih =>
    unfold examineFrom
    split
    · exact (keeps_grantPower i e q s).trans (ih _)
    · exact ⟨rfl, rfl, rfl⟩

/-- An examination whose head cannot be granted does nothing (05 R92). -/
theorem examine_blocked {s : State} (h : s.arbiter.blocked) : examine s = s := by
  unfold examine
  cases hq : s.arbiter.queue with
  | nil => rfl
  | cons e q =>
    unfold examineFrom
    refine if_neg fun hc => ?_
    rcases h e q hq with h | h <;> omega

/-- Two entries in one event are one entry of the second state, when the first keeps to the side of the bring-up group
the slot stood on (09 R170). -/
theorem Entered.andThen {i : SlotId} {st st' : SlotState} {r r' : Reason} {s a t : State} (h1 : Entered i st r 1 s a)
    (h2 : Entered i st' r' 1 a t) (hb : (s.slot i).state.inBringUp = st.inBringUp) : Entered i st' r' 2 s t where
  state := h2.state
  reason := h2.reason
  lines := h2.lines
  timers := h2.timers
  transitions := by rw [h2.transitions, h1.transitions]; rfl
  posted := h2.posted
  gate := by rw [h2.gate, h1.gate, h1.state, hb]; simp
  early := by rw [h2.early.1, h2.early.2.1, h2.early.2.2]; exact h1.early
  late := by rw [h2.late.1, h2.late.2.1, h2.late.2.2]; exact h1.late
  traceRef := h2.traceRef.trans h1.traceRef

theorem entered_grantPower {e : PowerEntry} {rest : List PowerEntry} {s : State} :
    Entered e.slot .powering .none 1 s (grantPower e rest s) := by
  have hs : (grantPower e rest s).slot e.slot = { (s.slot e.slot).enter .powering .none with
      grant := true, overCurrentRun := 0, pgGoodRun := 0, pgLostRun := 0,
      timers := { StateTimers.idle with ramp := some s.times.rampLimit } } := by
    unfold grantPower
    rw [slot_updSlot_self, slot_transition_self]
    rfl
  constructor
  · rw [hs]; rfl
  · rw [hs]; rfl
  · rw [hs]; exact enter_linesFollow (s.slot e.slot) .powering .none
  · rw [hs]; simp [Slot.timersFollow, Slot.enter, StateTimers.idle]
  · rw [hs]; simp [Slot.enter, raised, saturate]
  · unfold State.posted
    rw [hs]
    have hp : (transition e.slot .powering .none { s with arbiter := { s.arbiter with
      committed := s.arbiter.committed + e.power, ramping := s.arbiter.ramping + 1, queue := rest } }).posted e.slot :=
        postSlot_posted _ _
    unfold State.posted at hp
    rw [slot_transition_self] at hp
    exact hp
  · have h : (grantPower e rest s).recorder.gateReports = _ := transition_gateReports e.slot .powering .none
      { s with arbiter := { s.arbiter with
        committed := s.arbiter.committed + e.power, ramping := s.arbiter.ramping + 1, queue := rest } }
    rw [h, List.filter_append]
    show _ ++ List.filter _ (if (s.slot e.slot).state.inBringUp = _ then [] else _) = _
    split <;> simp
  · rw [hs]; exact ⟨rfl, rfl, rfl⟩
  · rw [hs]; exact ⟨rfl, rfl, rfl⟩
  · rw [hs]; rfl

/-- A slot that joins does what 05 R91, R92 and R95 say; it comes from outside the bring-up group. -/
theorem joinsPower_toPowerWait {i : SlotId} {s : State} (hb : (s.slot i).state.inBringUp = false) :
    JoinsPower i s (toPowerWait i s) := by
  refine ⟨slotFrame_toPowerWait i s, ?_, ?_, ?_, ?_⟩
  · unfold toPowerWait
    dsimp only
    split
    · exact keeps_transition i .refused .powerRange s rfl
    · have k := keeps_examine i { transition i .powerWait .none s with
        arbiter := { (transition i .powerWait .none s).arbiter with
          queue := (transition i .powerWait .none s).arbiter.queue ++ [{ slot := i, power := (s.slot i).power }] } }
      exact (keeps_transition i .powerWait .none s rfl).trans ⟨k.1, k.2, k.3⟩
  · intro h
    unfold toPowerWait
    dsimp only
    rw [if_pos h]
    exact ⟨entered_transition rfl, transition_arbiter i _ _ s, local_transition i _ _ s⟩
  · intro hq hc hr
    have hn : ¬ s.arbiter.budget < (s.slot i).power := by omega
    unfold toPowerWait
    dsimp only
    rw [if_neg hn]
    simp only [examine, transition_arbiter, hq, List.nil_append, examineFrom]
    rw [if_pos ⟨hc, hr⟩]
    have e1 : Entered i .powerWait .none 1 s { transition i .powerWait .none s with
        arbiter := { s.arbiter with queue := [{ slot := i, power := (s.slot i).power }] } } :=
      (entered_transition (i := i) (st := .powerWait) (r := .none) (s := s) rfl).of_untouched (.of_eq rfl rfl rfl)
    have e2 := entered_grantPower (e := { slot := i, power := (s.slot i).power }) (rest := [])
      (s := { transition i .powerWait .none s with
        arbiter := { s.arbiter with queue := [{ slot := i, power := (s.slot i).power }] } })
    refine ⟨e1.andThen e2 (by rw [hb]; rfl), ?_, ?_⟩
    · simp [grantPower]
    · simp [grantPower]
  · intro hp hbl hq
    have hn : ¬ s.arbiter.budget < (s.slot i).power := by omega
    unfold toPowerWait
    dsimp only
    rw [if_neg hn]
    have hx : ({ transition i .powerWait .none s with arbiter := { (transition i .powerWait .none s).arbiter with
        queue := (transition i .powerWait .none s).arbiter.queue ++ [{ slot := i, power := (s.slot i).power }] } } :
          State).arbiter.blocked := by
      intro e rest he
      simp only [transition_arbiter] at he ⊢
      rcases hs : s.arbiter.queue with _ | ⟨e', rest'⟩
      · rw [hs] at he
        simp only [List.nil_append, List.cons.injEq] at he
        obtain ⟨rfl, rfl⟩ := he
        exact hq hs
      · rw [hs] at he
        simp only [List.cons_append, List.cons.injEq] at he
        obtain ⟨rfl, rfl⟩ := he
        exact hbl _ _ hs
    rw [examine_blocked hx]
    refine ⟨?_, by simp⟩
    exact (entered_transition (i := i) (st := .powerWait) (r := .none) (s := s) rfl).of_untouched (.of_eq rfl rfl rfl)

/-! ### Transfers -/

/-- A job issued is in the engine, whatever the engine holds (02 R40, R46). -/
theorem mem_issueJob_jobs (i : SlotId) (t : Transaction) (s : State) :
    { slot := i, transaction := t } ∈ (issueJob i t s).engine.jobs := by
  unfold issueJob
  split
  · simp [Engine.jobs]
  · unfold startJob
    dsimp only
    split
    · rename_i j q h
      have hm : ({ slot := i, transaction := t } : Job) ∈ s.engine.queue ++ [{ slot := i, transaction := t }] := by simp
      rw [h] at hm
      simp only [List.mem_cons] at hm
      rcases hm with e | e
      · simp [Engine.jobs, ← e]
      · simp [Engine.jobs, e]
    · simp [Engine.jobs]

/-- The first block of a transfer (06 R114). -/
theorem nextBlock_first {i : SlotId} {n : Fin 8} {s : State} (hc : (s.slot i).transferCount = 0)
    (hl : 1 ≤ s.sets[n].length) :
    nextBlock i n s = issueJob i (.blockWrite n 0 (min (s.slot i).configBlock s.sets[n].length)) s := by
  unfold nextBlock
  dsimp only
  rw [hc, if_pos (by omega), Nat.sub_zero]

/-- A transfer of a set with words starts as 06 R113 and R114 say. -/
theorem startsTransfer_startTransfer {i : SlotId} {n : Fin 8} {s : State} (hst : (s.slot i).state = .configuring)
    (hr : (s.slot i).reason = .none ∨ (s.slot i).reason = .paramsWait) (hl : 1 ≤ s.sets[n].length) :
    StartsTransfer i n s (startTransfer i n s) := by
  obtain ⟨q, hq, hqs, hqset⟩ : ∃ q : State,
      startTransfer i n s = nextBlock i n (if (s.slot i).reason = .paramsWait then writeReason i .none q else q) ∧
      q.slot i = { s.slot i with pin := some n, transferCount := 0 } ∧
      q.sets[n] = { s.sets[n] with pins := s.sets[n].pins + 1 } :=
    ⟨_, rfl, slot_of_set_self (s := s) rfl, by simp⟩
  obtain ⟨p, hp, hslot, hset⟩ : ∃ p : State, startTransfer i n s = nextBlock i n p ∧
      p.slot i = { s.slot i with pin := some n, transferCount := 0, reason := .none } ∧
      p.sets[n] = { s.sets[n] with pins := s.sets[n].pins + 1 } := by
    refine ⟨_, hq, ?_, ?_⟩
    · rcases hr with hr | hr
      · rw [if_neg (by rw [hr]; decide), hqs, ← hr]
      · rw [if_pos hr, slot_writeReason_self, hqs]
    · split
      · exact hqset
      · exact hqset
  have hl' : 1 ≤ p.sets[n].length := by rw [hset]; exact hl
  have hn := nextBlock_first (i := i) (n := n) (s := p) (by rw [hslot]) hl'
  have hs : (startTransfer i n s).slot i = { s.slot i with pin := some n, transferCount := 0, reason := .none } := by
    rw [hp, hn, slot_issueJob, hslot]
  refine ⟨slotFrame_startTransfer i n s, ?_, ?_, ?_, ?_, ?_⟩
  · constructor <;> rw [hs]
  · rw [hs]; exact ⟨hst, rfl⟩
  · refine ⟨by rw [hs], ?_⟩
    rw [hp, hn, issueJob_sets]
    exact hset
  · rw [hs]
  · rw [hp, hn]
    have h := mem_issueJob_jobs i (.blockWrite n 0 (min (p.slot i).configBlock p.sets[n].length)) p
    rw [hset] at h ⊢
    rw [hslot] at h ⊢
    exact h

end Sys2Proof.Machine
end

