-- ==== Sys2Proof/Laws/Commands.lean ====
section
/-!
SUPPORT. Taking commands: what a step, `whenLive`, `takeCommand` and the argument readers answer, said once.
-/
namespace Sys2Proof.Machine

/-! ### A step -/

theorem step_inFront (c : Instr) (s : State) : step (s.inFront c) = exec c s := rfl

theorem step_idle {s : State} (h : s.pending = []) : step s = .next s := by unfold step; rw [h]

theorem step_cons {s : State} {c : Instr} {rest : List Instr} (h : s.pending = c :: rest) :
    step s = exec c (s.withPending rest) := by unfold step; rw [h]

/-! ### Live or held in reset -/

theorem whenLive_live {f : State → State} {s : State} (h : s.inReset = false) : whenLive f s = .next (f s) := by
  simp [whenLive, h]

theorem whenLive_reset {f : State → State} {s : State} (h : s.inReset = true) : whenLive f s = .next s := by
  simp [whenLive, h]

theorem whenLive_next (f : State → State) (s : State) : ∃ t, whenLive f s = .next t := ⟨_, rfl⟩

/-! ### The judgment at the port -/

theorem takeCommand_wait {kind tag : Byte} {act : State → State × Answer} {s : State} (h : s.link.restartWait = true) :
    takeCommand kind tag act s = s := by simp [takeCommand, h]

theorem takeCommand_full {kind tag : Byte} {act : State → State × Answer} {s : State}
    (h : s.link.restartWait = false) (hf : 4 ≤ s.link.replies.length) : takeCommand kind tag act s =
      { s with link := { s.link with overruns := saturate 65535 s.link.overruns } } := by
  simp [takeCommand, h, Config.replyPlaces, hf]

theorem takeCommand_takes {kind tag : Byte} {act : State → State × Answer} {s : State} (h : s.takes) :
    takeCommand kind tag act s = transmit (queueReply kind tag (act s).2 (act s).1) := by
  obtain ⟨_, hw, hr⟩ := h
  have : ¬ Config.replyPlaces ≤ s.link.replies.length := by simp [Config.replyPlaces]; omega
  simp [takeCommand, hw, this]

/-- A host command that is taken: its effect, its reply, then the transmitter's choice. -/
theorem command_takes {kind tag : Byte} {act : State → State × Answer} {s : State} (h : s.takes) :
    whenLive (takeCommand kind tag act) s = .next (transmit (queueReply kind tag (act s).2 (act s).1)) := by
  rw [whenLive_live h.1, takeCommand_takes h]

/-- A queued reply, the choice made, is the one that `State.replied` names. -/
theorem transmit_queueReply (kind tag : Byte) (status : Status) (data : List Byte) (s : State) :
    transmit (queueReply kind tag { status := status, data := data } s) = s.replied kind tag status data := rfl

theorem queueReply_answers {kind tag : Byte} {a : Answer} {s t : State} (h : t.link.replies = s.link.replies) :
    Answers s (queueReply kind tag a t) kind tag a.status a.data := by simp [Answers, queueReply, h]

/-! ### Arguments -/

theorem indexOf_val {n : Nat} (i : Fin n) : indexOf n i.val = some i := by simp [indexOf]

theorem indexOf_of_le {n v : Nat} (h : n ≤ v) : indexOf n v = none := by
  simp [indexOf, Nat.not_lt.2 h]

theorem slotByte_toNat (i : SlotId) : (slotByte i).toNat = i.val := by
  simp only [slotByte, BitVec.toNat_ofNat]
  omega

@[simp] theorem slotArg_slotByte (i : SlotId) : slotArg (slotByte i) = some i := by
  unfold slotArg
  rw [slotByte_toNat, indexOf_val]

theorem slotArg_beyond {b : Byte} (h : 11 < b.toNat) : slotArg b = none := indexOf_of_le h

@[simp] theorem onSlot_slotByte (i : SlotId) (act : SlotId → State → State × Answer) (s : State) :
    onSlot (slotByte i) act s = act i s := by simp [onSlot]

theorem onSlot_beyond {b : Byte} (h : 11 < b.toNat) (act : SlotId → State → State × Answer) (s : State) :
    onSlot b act s = refuseWith .badArgument s := by simp [onSlot, slotArg_beyond h]

theorem setArg_of {b : Byte} {n : Fin 8} (h : b.toNat = n.val) : setArg b = some n := by
  unfold setArg; rw [h, indexOf_val]

theorem setArg_beyond {b : Byte} (h : 7 < b.toNat) : setArg b = none := indexOf_of_le h

theorem keyArg_of {b : Byte} {k : Fin 4} (h : b.toNat = k.val) : keyArg b = some k := by
  unfold keyArg; rw [h, indexOf_val]

theorem keyArg_beyond {b : Byte} (h : 3 < b.toNat) : keyArg b = none := indexOf_of_le h

theorem clamp_eq (low high v : Nat) (h : low ≤ high) : clamp low high v = max low (min high v) := by
  unfold clamp
  split
  · omega
  · split <;> omega

theorem clamp_range (low high v : Nat) (h : low ≤ high) : low ≤ clamp low high v ∧ clamp low high v ≤ high := by
  rw [clamp_eq _ _ _ h]
  omega

end Sys2Proof.Machine
end

