-- ==== Sys2Proof/Laws/Transmit.lean ====
section
/-!
SUPPORT. The transmitter's choice: everything it can do, said once.
-/
namespace Sys2Proof.Machine

/-! ### The transmitter's choice (10 R191) -/

theorem transmit_busy {s : State} {x : Transmission} (h : s.link.tx = some x) : transmit s = s := by
  simp [transmit, h]

theorem transmit_reply {s : State} {r : Reply} {rest : List Reply} (h : s.link.tx = none) (hr : s.link.replies = r :: rest) :
    transmit s = { s with link := { s.link with tx := some (.reply r.frame) } } := by simp [transmit, h, hr]

theorem transmit_notice {s : State} {n : Notice} {rest : List Notice} (h : s.link.tx = none) (hr : s.link.replies = [])
    (hn : s.link.notices = n :: rest) :
    transmit s = noticeTaken n { s with link := { s.link with notices := rest, tx := some (.notice n.frame) } } := by
  simp [transmit, h, hr, hn]

theorem transmit_nothing {s : State} (hr : s.link.replies = []) (hn : s.link.notices = []) : transmit s = s := by
  cases h : s.link.tx <;> simp [transmit, h, hr, hn]

/-- A notice taken changes at most the transition count of its slot. -/
theorem noticeTaken_eq (n : Notice) (s : State) : noticeTaken n s = { s with slots := (noticeTaken n s).slots } := by
  unfold noticeTaken; split <;> rfl

theorem slot_noticeTaken (n : Notice) (s : State) (i : SlotId) :
    (noticeTaken n s).slot i = if n.source = .slot i then { s.slot i with transitions := 0 } else s.slot i := by
  unfold noticeTaken
  split
  · next j hj =>
    by_cases h : i = j
    · subst h; simp [hj]
    · have : n.source ≠ .slot i := by rw [hj]; simpa using fun e => h e.symm
      simp [this, h]
  · next hj => simp [hj]
  · next hj => simp [hj]

/-- The choice reaches the transmitter, the notice queue and a transition count, nothing else. -/
theorem transmit_eq (s : State) : transmit s = { s with
    slots := (transmit s).slots
    link := { s.link with notices := (transmit s).link.notices, tx := (transmit s).link.tx } } := by
  unfold transmit
  split
  · rfl
  · rfl
  · rw [noticeTaken_eq]
  · rfl

@[simp] theorem transmit_pending (s : State) : (transmit s).pending = s.pending := by rw [transmit_eq]
@[simp] theorem transmit_inReset (s : State) : (transmit s).inReset = s.inReset := by rw [transmit_eq]
@[simp] theorem transmit_times (s : State) : (transmit s).times = s.times := by rw [transmit_eq]
@[simp] theorem transmit_engine (s : State) : (transmit s).engine = s.engine := by rw [transmit_eq]
@[simp] theorem transmit_policy (s : State) : (transmit s).policy = s.policy := by rw [transmit_eq]
@[simp] theorem transmit_keys (s : State) : (transmit s).keys = s.keys := by rw [transmit_eq]
@[simp] theorem transmit_arbiter (s : State) : (transmit s).arbiter = s.arbiter := by rw [transmit_eq]
@[simp] theorem transmit_monitor (s : State) : (transmit s).monitor = s.monitor := by rw [transmit_eq]
@[simp] theorem transmit_sets (s : State) : (transmit s).sets = s.sets := by rw [transmit_eq]
@[simp] theorem transmit_planner (s : State) : (transmit s).planner = s.planner := by rw [transmit_eq]
@[simp] theorem transmit_sequencer (s : State) : (transmit s).sequencer = s.sequencer := by rw [transmit_eq]
@[simp] theorem transmit_recorder (s : State) : (transmit s).recorder = s.recorder := by rw [transmit_eq]
@[simp] theorem transmit_replies (s : State) : (transmit s).link.replies = s.link.replies := by rw [transmit_eq]
@[simp] theorem transmit_receiver (s : State) : (transmit s).link.receiver = s.link.receiver := by rw [transmit_eq]
@[simp] theorem transmit_rate (s : State) : (transmit s).link.rate = s.link.rate := by rw [transmit_eq]
@[simp] theorem transmit_restartWait (s : State) : (transmit s).link.restartWait = s.link.restartWait := by rw [transmit_eq]
@[simp] theorem transmit_checkFailures (s : State) : (transmit s).link.checkFailures = s.link.checkFailures := by rw [transmit_eq]
@[simp] theorem transmit_gapAborts (s : State) : (transmit s).link.gapAborts = s.link.gapAborts := by rw [transmit_eq]
@[simp] theorem transmit_overruns (s : State) : (transmit s).link.overruns = s.link.overruns := by rw [transmit_eq]

/-- A slot keeps everything through the choice but, at most, its transition count, which its notice's removal clears
(01 R28). -/
theorem slot_transmit (s : State) (i : SlotId) :
    (transmit s).slot i = s.slot i ∨ (transmit s).slot i = { s.slot i with transitions := 0 } := by
  unfold transmit
  split
  · exact .inl rfl
  · exact .inl rfl
  · rw [slot_noticeTaken]
    split
    · exact .inr rfl
    · exact .inl rfl
  · exact .inl rfl

/-- After the choice an idle transmitter has nothing waiting. -/
theorem transmit_idle {s : State} (h : (transmit s).link.tx = none) :
    (transmit s).link.replies = [] ∧ (transmit s).link.notices = [] := by
  cases ht : s.link.tx with
  | some x => rw [transmit_busy ht, ht] at h; cases h
  | none =>
    cases hr : s.link.replies with
    | cons r rest => rw [transmit_reply ht hr] at h; cases h
    | nil =>
      cases hn : s.link.notices with
      | nil => rw [transmit_nothing hr hn]; exact ⟨hr, hn⟩
      | cons n rest =>
        rw [transmit_notice ht hr hn, noticeTaken_eq] at h
        cases h

/-- The choice is made once: a second one finds the transmitter busy or nothing waiting. -/
theorem transmit_transmit (s : State) : transmit (transmit s) = transmit s := by
  cases h : (transmit s).link.tx with
  | some x => exact transmit_busy h
  | none => exact transmit_nothing (transmit_idle h).1 (transmit_idle h).2

end Sys2Proof.Machine
end

