-- ==== Sys2Proof/Laws/Completions.lean ====
section
/-!
SUPPORT. Taking job completions: the slot frame of every completion taken, and catching up as the commands it stands for.
-/
namespace Sys2Proof.Machine

/-! ### The slot frame of a completion taken (02 R47) -/

theorem slotFrame_refuseCard (i : SlotId) (reason : Reason) (r : Screening) (s : State) :
    SlotFrame i s (refuseCard i reason r s) :=
  (slotFrame_updSlot i s _).trans (slotFrame_transition i _ _ _)

theorem slotFrame_screenTiming (i : SlotId) (ident : List Byte) (action : PolicyAction) (r : Screening) (s : State) :
    SlotFrame i s (screenTiming i ident action r s) := by
  unfold screenTiming
  split
  · exact slotFrame_refuseCard i _ _ s
  · dsimp only
    split
    · exact slotFrame_refuseCard i _ _ s
    · split
      · exact slotFrame_refuseCard i _ _ s
      · split
        · exact (slotFrame_updSlot i s _).trans (slotFrame_toConsentWait i _)
        · exact (slotFrame_updSlot i s _).trans (slotFrame_admitCard i _)

theorem slotFrame_screenCard (i : SlotId) (ident : List Byte) (s : State) : SlotFrame i s (screenCard i ident s) := by
  unfold screenCard
  split
  · exact slotFrame_refuseCard i _ _ s
  · exact slotFrame_screenTiming i _ _ _ s

theorem slotFrame_takeHeader (i : SlotId) (header : List Byte) (s : State) : SlotFrame i s (takeHeader i header s) := by
  unfold takeHeader
  split
  · exact (slotFrame_updSlot i s _).trans (slotFrame_issueJob i _ _)
  · exact slotFrame_transition i _ _ s

theorem slotFrame_takeBody (i : SlotId) (body : List Byte) (s : State) : SlotFrame i s (takeBody i body s) := by
  unfold takeBody
  dsimp only
  split
  · exact slotFrame_screenCard i _ s
  · exact slotFrame_transition i _ _ s

theorem slotFrame_takeInIdentifying (i : SlotId) (c : Completion) (s : State) :
    SlotFrame i s (takeInIdentifying i c s) := by
  unfold takeInIdentifying
  split
  · split
    · exact slotFrame_takeHeader i _ s
    · exact slotFrame_takeBody i _ s
  · exact slotFrame_takeFault i _ s
  · exact slotFrame_takeFault i _ s
  · exact SlotFrame.refl i s

theorem slotFrame_walkKeys (i : SlotId) (s : State) : SlotFrame i s (walkKeys i s) := by
  unfold walkKeys
  split
  · exact (slotFrame_updSlot i s _).trans (slotFrame_issueJob i _ _)
  · exact slotFrame_transition i _ _ s

theorem slotFrame_chargeDenial (i : SlotId) (s : State) : SlotFrame i s (chargeDenial i s) := by
  unfold chargeDenial
  dsimp only
  split
  · exact (slotFrame_updSlot i s _).trans (slotFrame_powerOff i _ _ _)
  · exact (slotFrame_updSlot i s _).trans (slotFrame_walkKeys i _)

theorem slotFrame_takeInUnlocking (i : SlotId) (c : Completion) (s : State) : SlotFrame i s (takeInUnlocking i c s) := by
  unfold takeInUnlocking
  split
  · split
    · exact slotFrame_walkKeys i s
    · exact slotFrame_toPowerWait i s
  · exact slotFrame_toPowerWait i s
  · exact slotFrame_chargeDenial i s
  all_goals first | exact slotFrame_takeFault i _ s | exact SlotFrame.refl i s

theorem slotFrame_takeReady (i : SlotId) (s : State) : SlotFrame i s (takeReady i s) := by
  unfold takeReady
  dsimp only
  split
  · exact (slotFrame_withdrawJob i s).trans ((slotFrame_transition i _ _ _).trans (slotFrame_examineSet i _ _))
  · exact (slotFrame_withdrawJob i s).trans (slotFrame_insertWindow i _)

theorem slotFrame_pollAgain (i : SlotId) (s : State) : SlotFrame i s (pollAgain i s) := by
  unfold pollAgain
  split
  · exact slotFrame_pollStatus i s
  · exact SlotFrame.refl i s

theorem slotFrame_takeInReadyWait (i : SlotId) (c : Completion) (s : State) : SlotFrame i s (takeInReadyWait i c s) := by
  unfold takeInReadyWait
  split
  · split
    · exact slotFrame_takeReady i s
    · exact slotFrame_pollAgain i s
  all_goals first | exact slotFrame_pollAgain i s | exact SlotFrame.refl i s

theorem slotFrame_advanceBlock (i : SlotId) (n : Fin 8) (words : Nat) (s : State) :
    SlotFrame i s (advanceBlock i n words s) := by
  unfold advanceBlock
  exact (slotFrame_updSlot i s _).trans (slotFrame_nextBlock i n _)

theorem slotFrame_endCommit (i : SlotId) (n : Fin 8) (s : State) : SlotFrame i s (endCommit i n s) := by
  unfold endCommit
  exact slotFrame_endTransfer i _ s

theorem slotFrame_takeInTransfer (i : SlotId) (n : Fin 8) (c : Completion) (s : State) :
    SlotFrame i s (takeInTransfer i n c s) := by
  have ended := slotFrame_endCommit i n s
  unfold takeInTransfer
  split
  · exact slotFrame_advanceBlock i n _ s
  · exact ended.trans (slotFrame_insertWindow i _)
  · exact ended.trans (slotFrame_takeFault i _ _)
  · exact ended.trans (slotFrame_takeFault i _ _)
  · exact ended.trans (slotFrame_takeFault i _ _)
  · exact slotFrame_takeFault i _ s
  · exact slotFrame_takeFault i _ s
  · exact SlotFrame.refl i s

/-- Whatever a completion brings, taking it is an event of its slot alone. -/
theorem slotFrame_takeCompletion (i : SlotId) (c : Completion) (s : State) : SlotFrame i s (takeCompletion i c s) := by
  unfold takeCompletion
  split
  · exact slotFrame_takeInIdentifying i c s
  · exact slotFrame_takeInUnlocking i c s
  · exact slotFrame_takeInReadyWait i c s
  · split
    · exact slotFrame_takeInTransfer i _ c s
    · exact SlotFrame.refl i s
  all_goals exact SlotFrame.refl i s

/-! ### Catching up (02 R45) -/

theorem takeNextCompletion_inReset (i : SlotId) (s : State) : (takeNextCompletion i s).inReset = s.inReset := by
  unfold takeNextCompletion
  split
  · rw [transmit_inReset, (slotFrame_takeCompletion i _ _).inReset, updSlot_inReset]
  · rfl

theorem takeCompletions_inReset (i : SlotId) (n : Nat) : ∀ s : State, (takeCompletions i n s).inReset = s.inReset := by
  induction n with
  | zero => exact fun s => rfl
  | succ n ih => exact fun s => (ih _).trans (takeNextCompletion_inReset i s)

/-- A number of completions taken is that number of JOB_COMPLETION_TAKEN commands. -/
theorem execAll_completions (i : SlotId) (n : Nat) : ∀ {s : State}, s.inReset = false →
    execAll (List.replicate n (.jobCompletionTaken i)) s = .next (takeCompletions i n s) := by
  induction n with
  | zero => exact fun _ => rfl
  | succ n ih =>
    intro s h
    have hx : exec (.jobCompletionTaken i) s = .next (takeNextCompletion i s) := whenLive_live h
    rw [List.replicate_succ, execAll, hx]
    exact ih ((takeNextCompletion_inReset i s).trans h)

/-- Catching up is the taking of every completion already sent, and nothing else is. -/
theorem caughtUp_iff {i : SlotId} {s u : State} (h : s.inReset = false) : s.caughtUp i u ↔ u = catchUp i s := by
  unfold State.caughtUp catchUp
  rw [execAll_completions i _ h]
  exact ⟨fun e => (Host.Outcome.next.inj e).symm, fun e => by rw [e]⟩

theorem catchUp_nothing {i : SlotId} {s : State} (h : (s.slot i).inbox.completions = []) : catchUp i s = s := by
  simp [catchUp, h, takeCompletions]

end Sys2Proof.Machine
end

