-- ==== Sys2Proof/Laws/Line.lean ====
section
/-!
SUPPORT. Characters on TXD and RXD: which bit stands where, and when TXD is high.
-/
namespace Sys2Proof

/-- A byte passes the line unchanged. -/
@[simp] theorem Character.byte_ofByte (b : Byte) : (Character.ofByte b).byte = b := by
  revert b; decide +kernel

@[simp] theorem Character.levels_length (c : Character) : c.levels.length = 10 := by
  simp [Character.levels]

/-- The stop bit is not judged (10 R184). -/
theorem Character.byte_stop (c : Character) (high : Bool) : ({ c with stop := high } : Character).byte = c.byte := rfl

theorem Character.byte_listed : ∀ b0 b1 b2 b3 b4 b5 b6 b7 stop : Bool, ∀ k : Fin 8,
    ({ bits := #v[b0, b1, b2, b3, b4, b5, b6, b7], stop := stop } : Character).byte.getLsbD k =
      (#v[b0, b1, b2, b3, b4, b5, b6, b7])[k] := by decide +kernel

/-- Bit k of a byte taken is the data bit received k-th (10 R184). -/
theorem Character.getLsbD_byte (c : Character) (k : Fin 8) : c.byte.getLsbD k = c.bits[k] := by
  obtain ⟨⟨⟨l⟩, h⟩, stop⟩ := c
  match l, h with
  | [b0, b1, b2, b3, b4, b5, b6, b7], _ => exact Character.byte_listed b0 b1 b2 b3 b4 b5 b6 b7 stop k

end Sys2Proof

namespace Sys2Proof.Machine

theorem txdLevels_idle {s : State} (h : s.link.tx = none) : s.txdLevels = [] := by
  unfold State.txdLevels; rw [h]; cases s.inReset <;> rfl

theorem txdLevels_reset {s : State} (h : s.inReset = true) : s.txdLevels = [] := by
  unfold State.txdLevels; rw [h]

theorem txdLevels_sending {s : State} {frame : Transmission} (hs : s.inReset = false) (h : s.link.tx = some frame) :
    s.txdLevels = frame.bytes.flatMap fun b => (Character.ofByte b).levels := by
  unfold State.txdLevels; rw [hs, h]

/-- A frame of n bytes takes ten bit times a byte (10 R184). -/
theorem txdLevels_length {s : State} {frame : Transmission} (hs : s.inReset = false) (h : s.link.tx = some frame) :
    s.txdLevels.length = 10 * frame.bytes.length := by
  rw [txdLevels_sending hs h]
  generalize frame.bytes = bytes
  induction bytes with
  | nil => rfl
  | cons b rest ih => rw [List.flatMap_cons, List.length_append, ih, Character.levels_length, List.length_cons]; omega

/-- TXD rests high wherever no character stands on it (10 R184). -/
theorem txd_high {s : State} {k : Nat} (h : s.txdLevels.length ≤ k) : s.txd k = true := by
  simp [State.txd, List.getElem?_eq_none h]

end Sys2Proof.Machine
end

