-- ==== Sys2Proof/Laws/Memory.lean ====
section
/-!
SUPPORT. The trace memory: what a place reads as after a store, and that every operation keeps the canonical form. Two
canonical lists that read alike at every place are equal.
-/
namespace Sys2Proof.Machine

@[simp] theorem readPlace_nil (a : Nat) : readPlace [] a = blankFrame := rfl

theorem readPlace_cons (k : Nat) (f : MonitorSample) (m : Memory) (a : Nat) :
    readPlace ((k, f) :: m) a = if k = a then f else readPlace m a := rfl

/-! ### The canonical form -/

@[simp] theorem above_nil (low : Nat) : Memory.above low [] = true := rfl

theorem above_cons (low k : Nat) (f : MonitorSample) (m : Memory) :
    Memory.above low ((k, f) :: m) = true ↔ low ≤ k ∧ f ≠ blankFrame ∧ Memory.above (k + 1) m = true := by
  simp [Memory.above, and_assoc]

theorem above_mono {low high : Nat} {m : Memory} (h : low ≤ high) (hm : Memory.above high m = true) :
    Memory.above low m = true := by
  cases m with
  | nil => rfl
  | cons p m =>
    rw [above_cons] at hm ⊢
    exact ⟨Nat.le_trans h hm.1, hm.2⟩

/-- The memory after a reset is canonical. -/
@[simp] theorem wf_nil : Memory.wf [] = true := rfl

theorem wf_reset : State.reset.recorder.memory.wf = true := rfl

/-- A place below every listed one reads as an unlisted place. -/
theorem readPlace_below {m : Memory} : ∀ {low a : Nat}, Memory.above low m = true → a < low →
    readPlace m a = blankFrame := by
  induction m with
  | nil => intros; rfl
  | cons p m ih =>
    intro low a h ha
    rw [above_cons] at h
    rw [readPlace_cons, if_neg (by omega)]
    exact ih h.2.2 (by omega)

/-! ### A store -/

theorem above_listPlace {low a : Nat} (f : MonitorSample) {m : Memory} (ha : low ≤ a)
    (hm : Memory.above (a + 1) m = true) : Memory.above low (listPlace a f m) = true := by
  unfold listPlace
  split
  · exact above_mono (by omega) hm
  · rename_i hf
    exact (above_cons _ _ _ _).2 ⟨ha, hf, hm⟩

theorem above_writePlace (a : Nat) (f : MonitorSample) {m : Memory} : ∀ {low : Nat}, Memory.above low m = true →
    low ≤ a → Memory.above low (writePlace m a f) = true := by
  induction m with
  | nil => intro low _ ha; exact above_listPlace f ha rfl
  | cons p m ih =>
    obtain ⟨k, g⟩ := p
    intro low h ha
    have hc := (above_cons _ _ _ _).1 h
    unfold writePlace
    split
    · rename_i hk
      exact above_listPlace f ha ((above_cons _ _ _ _).2 ⟨hk, hc.2⟩)
    · split
      · rename_i hk
        subst hk
        exact above_listPlace f ha hc.2.2
      · exact (above_cons _ _ _ _).2 ⟨hc.1, hc.2.1, ih hc.2.2 (by omega)⟩

/-- A store keeps the canonical form. -/
theorem wf_writePlace {m : Memory} (h : m.wf = true) (a : Nat) (f : MonitorSample) : (writePlace m a f).wf = true :=
  above_writePlace a f h (Nat.zero_le a)

theorem readPlace_listPlace {low a b : Nat} (f : MonitorSample) {m : Memory} (hm : Memory.above low m = true)
    (ha : a < low) : readPlace (listPlace a f m) b = if b = a then f else readPlace m b := by
  unfold listPlace
  split
  · rename_i hf
    split
    · rename_i hb
      rw [hb, hf]
      exact readPlace_below hm ha
    · rfl
  · rw [readPlace_cons]
    simp only [eq_comm]

/-- After a store the place reads as the stored frame and every other place as before. -/
theorem readPlace_writePlace (a b : Nat) (f : MonitorSample) {m : Memory} : ∀ {low : Nat}, Memory.above low m = true →
    readPlace (writePlace m a f) b = if b = a then f else readPlace m b := by
  induction m with
  | nil => intro low _; exact readPlace_listPlace (low := a + 1) f rfl (by omega)
  | cons p m ih =>
    obtain ⟨k, g⟩ := p
    intro low h
    have hc := (above_cons _ _ _ _).1 h
    unfold writePlace
    split
    · rename_i hk
      exact readPlace_listPlace (low := k) f ((above_cons _ _ _ _).2 ⟨Nat.le_refl k, hc.2⟩) hk
    · split
      · rename_i hk
        subst hk
        rw [readPlace_listPlace (low := a + 1) f hc.2.2 (by omega), readPlace_cons]
        split
        · rfl
        · rename_i hb
          rw [if_neg fun e => hb e.symm]
      · rename_i h1 h2
        rw [readPlace_cons, readPlace_cons, ih hc.2.2]
        by_cases hb : b = a
        · rw [if_pos hb, if_pos hb, if_neg (by omega)]
        · rw [if_neg hb, if_neg hb]

theorem read_write {m : Memory} (h : m.wf = true) (a b : Nat) (f : MonitorSample) :
    readPlace (writePlace m a f) b = if b = a then f else readPlace m b := readPlace_writePlace a b f h

/-- A store lists no place but its own. -/
theorem mem_writePlace {m : Memory} {a : Nat} {f : MonitorSample} {p : Nat × MonitorSample}
    (h : p ∈ writePlace m a f) : p.1 = a ∨ p ∈ m := by
  have hl : ∀ n : Memory, p ∈ listPlace a f n → p.1 = a ∨ p ∈ n := by
    intro n hn
    unfold listPlace at hn
    split at hn
    · exact .inr hn
    · rcases List.mem_cons.1 hn with rfl | hn
      · exact .inl rfl
      · exact .inr hn
  induction m with
  | nil => exact hl _ h
  | cons q m ih =>
    unfold writePlace at h
    split at h
    · exact hl _ h
    · split at h
      · rcases hl _ h with h | h
        · exact .inl h
        · exact .inr (List.mem_cons_of_mem _ h)
      · rcases List.mem_cons.1 h with rfl | h
        · exact .inr (List.mem_cons_self ..)
        · rcases ih h with h | h
          · exact .inl h
          · exact .inr (List.mem_cons_of_mem _ h)

/-! ### Equal memories are equal data -/

theorem above_ext {m : Memory} : ∀ {n : Memory} {low : Nat}, Memory.above low m = true → Memory.above low n = true →
    (∀ a, readPlace m a = readPlace n a) → m = n := by
  induction m with
  | nil =>
    intro n low _ hn h
    cases n with
    | nil => rfl
    | cons p n =>
      have hc := (above_cons _ _ _ _).1 hn
      have := h p.1
      simp only [readPlace_nil] at this
      rw [show p :: n = (p.1, p.2) :: n from rfl, readPlace_cons, if_pos rfl] at this
      exact absurd this.symm hc.2.1
  | cons p m ih =>
    obtain ⟨k, f⟩ := p
    intro n low hm hn h
    have hc := (above_cons _ _ _ _).1 hm
    have hk := h k
    rw [readPlace_cons, if_pos rfl] at hk
    cases n with
    | nil => exact absurd hk hc.2.1
    | cons q n =>
      obtain ⟨l, g⟩ := q
      have hd := (above_cons _ _ _ _).1 hn
      have hl := h l
      rw [readPlace_cons l g, if_pos rfl] at hl
      have e : k = l := by
        rcases Nat.lt_trichotomy k l with hlt | he | hgt
        · rw [readPlace_below ((above_cons _ _ _ _).2 ⟨Nat.le_refl l, hd.2⟩) hlt] at hk
          exact absurd hk hc.2.1
        · exact he
        · rw [readPlace_below ((above_cons _ _ _ _).2 ⟨Nat.le_refl k, hc.2⟩) hgt] at hl
          exact absurd hl.symm hd.2.1
      subst e
      rw [readPlace_cons, if_pos rfl] at hk
      subst hk
      congr 1
      refine ih hc.2.2 hd.2.2 fun a => ?_
      by_cases ha : k = a
      · subst ha
        rw [readPlace_below hc.2.2 (by omega), readPlace_below hd.2.2 (by omega)]
      · have := h a
        rwa [readPlace_cons, readPlace_cons, if_neg ha, if_neg ha] at this

/-- Two canonical memories that read alike at every place are equal. -/
theorem memory_ext {m n : Memory} (hm : m.wf = true) (hn : n.wf = true) (h : ∀ a, readPlace m a = readPlace n a) :
    m = n := above_ext hm hn h

end Sys2Proof.Machine
end

