-- ==== Sys2Proof/Laws/SetupBus.lean ====
section
/-!
SUPPORT. What passes on a setup-bus pair: bit times counted; which bytes the engine sends; what a boundary, an end and a time-out do.
-/
namespace Sys2Proof.Machine

/-- A byte takes nine clock periods (02 R31). -/
@[simp] theorem byteSymbols_length (refused : Bool) (b : Byte) : (byteSymbols refused b).length = 9 := by
  simp [byteSymbols]

@[simp] theorem acceptedSymbols_nil : acceptedSymbols [] = [] := rfl

@[simp] theorem acceptedSymbols_append (a b : List Byte) :
    acceptedSymbols (a ++ b) = acceptedSymbols a ++ acceptedSymbols b := by
  simp [acceptedSymbols]

@[simp] theorem acceptedSymbols_length (bytes : List Byte) : (acceptedSymbols bytes).length = 9 * bytes.length := by
  induction bytes with
  | nil => rfl
  | cons b rest ih => simp only [acceptedSymbols, List.flatMap_cons, List.length_append, byteSymbols_length,
      List.length_cons] at ih ⊢; omega

/-- SB_CLK is high at some time of every bit time. -/
theorem levels_clock_high (b : BusSymbol) : ∃ d, (true, d) ∈ b.levels := by
  cases b with
  | start => exact ⟨true, by simp [BusSymbol.levels]⟩
  | bit high => exact ⟨high, by simp [BusSymbol.levels]⟩
  | stop => exact ⟨false, by simp [BusSymbol.levels]⟩

@[simp] theorem ended_passOnPair (cur : CurrentJob) (bytes : List BusSymbol) (s : State) :
    (passOnPair cur bytes s).engine.ended = some { slot := cur.job.slot, symbols := .start :: bytes ++ [.stop] } := rfl

@[simp] theorem current_passOnPair (cur : CurrentJob) (bytes : List BusSymbol) (s : State) :
    (passOnPair cur bytes s).engine.current = s.engine.current := rfl

@[simp] theorem queue_passOnPair (cur : CurrentJob) (bytes : List BusSymbol) (s : State) :
    (passOnPair cur bytes s).engine.queue = s.engine.queue := rfl

/-- An ended transaction leaves everything but the engine's record of it. -/
theorem passOnPair_eq (cur : CurrentJob) (bytes : List BusSymbol) (s : State) :
    passOnPair cur bytes s = { s with engine := { s.engine with ended := (passOnPair cur bytes s).engine.ended } } := rfl

/-- A byte boundary reaches the job in progress, nothing else. -/
theorem reachBoundary_eq (cur : CurrentJob) (bytes : Nat) (data : List Byte) (s : State) :
    reachBoundary cur bytes data s =
      { s with engine := { s.engine with current := (reachBoundary cur bytes data s).engine.current } } := rfl

@[simp] theorem ended_reachBoundary (cur : CurrentJob) (bytes : Nat) (data : List Byte) (s : State) :
    (reachBoundary cur bytes data s).engine.ended = s.engine.ended := rfl

/-- Without an abort request the engine's bytes are those of its transaction and of its set. -/
theorem sends_reading {cur : CurrentJob} (h : cur.abort = false) (sets : Vector ParamSet 8) :
    cur.sends sets = cur.job.transaction.sentBytes sets := by
  simp [CurrentJob.sends, h]

/-- Under an abort request the sets do not reach the pair. -/
theorem sends_cut {cur : CurrentJob} (h : cur.abort = true) (sets : Vector ParamSet 8) :
    cur.sends sets = cur.cutBytes := by
  simp [CurrentJob.sends, h]

theorem reaches_iff (cur : CurrentJob) (bytes : Nat) (data : List Byte) : cur.reaches bytes data = true ↔
    cur.nextByte + bytes < cur.job.transaction.sentLength + cur.job.transaction.answerLength ∧
      cur.received.length + data.length = cur.nextByte + bytes - cur.job.transaction.sentLength := by
  simp [CurrentJob.reaches]

/-- The end of a transaction that opened nothing, or that is none of the job's, changes nothing. -/
theorem completeJob_misfit {s : State} {cur : CurrentJob} {how : BusEnd} (hc : s.engine.current = some cur)
    (h : cur.held = true ∨ cur.fits how = false) : completeJob how s = s := by
  rcases h with h | h <;> simp [completeJob, hc, h]

/-- Under an abort request every end of the transaction is ABORTED, with what has passed (02 R44). -/
theorem completeJob_aborted {s : State} {cur : CurrentJob} {how : BusEnd} (hc : s.engine.current = some cur)
    (hh : cur.held = false) (hf : cur.fits how = true) (ha : cur.abort = true) :
    completeJob how s = endJob cur .aborted [] 0 (some (transferredBytes cur how))
      (passOnPair cur (endSymbols s.sets cur how) s) := by
  simp [completeJob, hc, hh, hf, ha]

theorem timeOutByte_misfit {s : State} {cur : CurrentJob} {late : LateByte}
    (hc : s.engine.current = some cur) (h : cur.held = true ∨ cur.reaches late.index late.data = false) :
    timeOutByte late s = s := by
  rcases h with h | h <;> simp [timeOutByte, hc, h]

/-- A byte not completed in time ends the job, whatever passed before it standing on the pair (02 R31, R39, R44). -/
theorem timeOutByte_open {s : State} {cur : CurrentJob} {late : LateByte}
    (hc : s.engine.current = some cur) (hh : cur.held = false) (hr : cur.reaches late.index late.data = true) :
    timeOutByte late s = endJob cur (if cur.abort then .aborted else .busTimeout) [] 0
      (some (cur.nextByte + late.index)) (passOnPair cur (acceptedSymbols (cur.passed s.sets late.index late.data)) s) := by
  simp [timeOutByte, hc, hh, hr]

/-- Taking the next job leaves the record of the last transaction. -/
@[simp] theorem ended_startJob (s : State) : (startJob s).engine.ended = s.engine.ended := by
  unfold startJob; split <;> rfl

@[simp] theorem ended_endJob (cur : CurrentJob) (o : JobOutcome) (d : List Byte) (n : Nat) (k : Option Nat) (s : State) :
    (endJob cur o d n k s).engine.ended = s.engine.ended := by
  simp [endJob, sendCompletion]

end Sys2Proof.Machine
end

