-- ==== Sys2Proof/Tests/Slice0.lean ====
section
/-!
SUPPORT. The model's own tests: ill-formed commands, the manual's worked examples in small states, and for every
obligation with hypotheses a state and operands that meet them, clause by clause at the boundaries.
-/
set_option Elab.async false

namespace Sys2Proof.Tests
open Sys2Proof.Machine

/-! ### Ill-formed commands -/

theorem test_illformed_key : (Instr.keyLoad 0 0 [0x11]).wellFormed = false := by decide
theorem test_illformed_load_empty : (Instr.paramLoad 0 0 0 0 []).wellFormed = false := by decide
theorem test_illformed_load_long : (Instr.paramLoad 0 0 0 111 (List.replicate 111 0)).wellFormed = false := by decide
theorem test_illformed_finished : (Instr.jobComplete (.finished (List.replicate 65 0))).wellFormed = false := by decide
theorem test_illformed_nak : (Instr.jobComplete (.nak 68)).wellFormed = false := by decide
theorem test_illformed_boundary : (Instr.jobComplete (.boundary 69 [])).wellFormed = false ∧
    (Instr.jobComplete (.boundary 67 (List.replicate 65 0))).wellFormed = false := by decide
theorem test_illformed_timeout : (Instr.busTimeout ⟨68, []⟩).wellFormed = false ∧
    (Instr.busTimeout ⟨67, List.replicate 65 0⟩).wellFormed = false := by decide
theorem test_illformed_pulse : (Instr.markPulseEnd 0 100).wellFormed = false := by decide
theorem test_illformed_slot_source : (Instr.triggerTaken { source := .slotPowerLost, slot := none }).wellFormed = false := by
  decide
theorem test_illformed_rail_source : (Instr.triggerTaken { source := .railDip, slot := some 3 }).wellFormed = false := by
  decide
theorem test_wellformed_limits : (Instr.paramLoad 0 0 0 110 (List.replicate 110 0)).wellFormed = true ∧
    (Instr.keyLoad 0 3 (List.replicate 16 0)).wellFormed = true ∧ (Instr.busTimeout ⟨67, List.replicate 64 0⟩).wellFormed = true ∧
    (Instr.markPulseEnd 1 0).wellFormed = true := by decide

/-! ### States to test in -/

/-- The next state of a command. -/
def after (c : Instr) (s : State) : State :=
  match exec c s with
  | .next t => t
  | .fault _ | .refused _ => s

/-- The card of 07 section 7.9, slot 5 of the manual's hot plug: power 120, key mask as given. -/
def cardRecord (keys : Byte) : List Byte :=
  let body : List Byte := [0xD7, 32, 0x3A, 0x10, 0x22, 0x07, 0, 0, 0, 1, keys, 0x11] ++ u16 120 ++ u16 24 ++ u16 38 ++
    u16 35 ++ u16 1450 ++ u16 15 ++ u16 60 ++ u16 700 ++ u16 96 ++ u8 32
  body ++ [0 - byteSum body]

/-- The screening results of that card under entry 1 of the table of 03 section 3.8. -/
def judged (keys : Byte) : Screening :=
  { Screening.absent with identity := some (cardRecord keys), matched := some 1, rank := some 20, paramSet := none,
                          window := some (descriptorOf (cardRecord keys) 2 66 1) }

/-- A slot with that card in a state, lines and timer as the state has them. -/
def seated (st : SlotState) : Slot :=
  { Slot.reset true true with
    state := st, early := true, late := true, screening := judged 0, stbyEn := st.standbyOn, mainEn := st.mainOn
    cardRst := st.cardReset, grant := st.mainOn, standby := if st.standbyOn then .settled else .off
    threshold := if st.checked then some 150 else none
    timers :=
      { StateTimers.idle with
        consent := if st = .consentWait then some 10 else none
        ramp := if st = .powering then some 20 else none
        resetHold := if st = .resetHold then some 10 else none
        ready := if st = .readyWait then some 1000 else none
        poll := if st = .readyWait then some 5 else none
        cooldown := if st = .cooldown then some 500 else none } }

/-- The machine after reset with slot 0 as given. -/
def with0 (c : Slot) : State := State.reset.setSlot 0 c

/-- The machine after reset with that card seated in slot 0. -/
def within (st : SlotState) : State := with0 (seated st)

/-- With a completion on its way to slot 0. -/
def sentTo (c : Slot) (a : Completion) : State := with0 { c with inbox := { c.inbox with completions := [a] } }

def answerOf (kind : TransactionKind) (outcome : JobOutcome) (data : List Byte) : Completion :=
  { kind := kind, outcome := outcome, data := data, words := 0, byteIndex := none }

/-- A monitor frame whose every slot current and PG are as given. -/
def sample (current : Code) (rail : Code) (pg : SlotSet) : MonitorSample :=
  { currents := Vector.replicate 12 current, rail := rail, pg := pg }

/-- With a monitor frame on its way to slot 0. -/
def framed (c : Slot) (f : MonitorSample) : State :=
  with0 { c with inbox := { c.inbox with frames := [{ time := 10, sample := f }] } }

def withRecorder (r : Recorder) : State := { State.reset with recorder := r }
def withLink (l : Link) : State := { State.reset with link := l }
def withSequencer (q : Sequencer) : State := { State.reset with sequencer := q }

/-- The reset's link takes a command: no restart wait, room for a reply. -/
theorem takes_of_link {s : State} (h : s.inReset = false) (hl : s.link = State.reset.link) : s.takes := by
  refine ⟨h, ?_, ?_⟩ <;> rw [hl] <;> decide

theorem reset_takes : State.reset.takes := takes_of_link rfl rfl
theorem within_takes (st : SlotState) : (within st).takes := takes_of_link rfl rfl

/-- No state of these helpers is held in reset. -/
theorem helpers_live : (∀ c, (with0 c).inReset = false) ∧ (∀ c a, (sentTo c a).inReset = false) ∧
    (∀ c f, (framed c f).inReset = false) ∧ (∀ r, (withRecorder r).inReset = false) ∧
    (∀ l, (withLink l).inReset = false) ∧ ∀ q, (withSequencer q).inReset = false :=
  ⟨fun _ => rfl, fun _ _ => rfl, fun _ _ => rfl, fun _ => rfl, fun _ => rfl, fun _ => rfl⟩

/-! ### The manual's worked examples -/

/-- 10 section 10.1: the check over the nine ASCII bytes 31h to 39h. -/
theorem test_crc_check_value : crc [0x31, 0x32, 0x33, 0x34, 0x35, 0x36, 0x37, 0x38, 0x39] = 0x29B1#16 := by
  decide +kernel

/-- 07 section 7.9: the window of the hot-plug card. -/
theorem test_window_of_hot_plug_card :
    (windowOf (cardRecord 0)).map (fun p => (p.1.setupCode, p.1.strobeCode, p.1.holdCode)) = some (2, 66, 1) ∧
    (windowOf (cardRecord 0)).map (fun p => (p.1.fullAccess, p.1.shortAccess, p.1.outFull, p.1.outShort)) =
      some (83, 81, 3, 9) ∧
    (windowOf (cardRecord 0)).map (fun p => (p.1.inFull, p.1.inShort, p.1.stretch, p.1.gap, p.1.length)) =
      some (5, 14, 35, 3, 2565) := by decide +kernel

/-- 07 section 7.9: the code at its edges. -/
theorem test_timing_code_edges :
    [0, 1, 63, 64, 65, 72, 73, 560, 561, 568, 569].map timingCode =
      [some 0, some 1, some 63, some 64, some 65, some 65, some 66, some 126, some 127, some 127, none] ∧
    [64, 65, 66, 126, 127].map quantized = [64, 72, 80, 560, 568] ∧
    [35, 1260, 1261, 1281, 11361].map ticksOf = [2, 63, 64, 65, 569] := by decide +kernel

/-- 05 section 5.10: 12.0 W at 150 percent is code 150. -/
theorem test_overload_threshold : overloadThreshold 120 150 = 150 := by decide

/-- The table of 03 section 3.8. -/
def policyTable : Policy :=
  let e (kind : EntryKind) (pattern mask : Long) (action : PolicyAction) (rank : Nat) (set : Option (Fin 8)) :
      PolicyEntry := { kind := kind, pattern := pattern, mask := mask, action := action, rank := rank, set := set }
  { Policy.reset with entries := (((Policy.reset.entries.set 1 (e .accept 0x3A102200 0xFFFFFF00 .allow 20 (some 3))).set 2
      (e .accept 0x3A100000 0xFFFF0000 .consent 60 none)).set 5
      (e .accept 0x5C214000 0xFFFFF000 .allow 30 none)).set 7 (e .reject 0x3A102203 0xFFFFFFFF .allow 0 none) }

/-- 03 section 3.8: five cards against one table. -/
theorem test_five_cards :
    [0x3A102203, 0x3A102207, 0x3A103101, 0x5C214A02, 0x77001001].map policyTable.verdict =
      [.refuse .rejected (some 7), .accept .allow (some 1) 20 (some 3), .accept .consent (some 2) 60 none,
       .accept .allow (some 5) 30 none, .refuse .noPolicy none] := by decide +kernel

/-! ### One event each -/

/-- 05 section 5.9, steps 7 and 8: a budget below the committed power changes nothing; one of 1,850 refuses the queued
slot of 1,900 and grants the head behind it. -/
def queueOfTwo : State :=
  let waiting (power : Nat) : Slot := { seated .powerWait with
    screening := { judged 0 with identity := some ((cardRecord 0).take 12 ++ u16 power ++ (cardRecord 0).drop 14) } }
  { ((State.reset.setSlot 10 (waiting 1900)).setSlot 1 (waiting 100)) with
    arbiter := { budget := 2000, rampLimit := 1, committed := 1750, ramping := 0,
                 queue := [{ slot := 10, power := 1900 }, { slot := 1, power := 100 }] } }

def budget (n : Nat) : PowerFields :=
  { budget := BitVec.ofNat 16 n, rampLimit := 1, margin := 150, inrush := 400, filter := 5, railDip := 2000 }

theorem test_budget_below_committed : (after (.setPower 0 (budget 1700)) queueOfTwo).arbiter = queueOfTwo.arbiter := by
  decide +kernel

theorem test_lowered_budget :
    let t := after (.setPower 0 (budget 1850)) queueOfTwo
    t.arbiter = { budget := 1850, rampLimit := 1, committed := 1850, ramping := 1, queue := [] } ∧
      (t.slot 10).state = .refused ∧ (t.slot 10).reason = .powerRange ∧ (t.slot 1).state = .powering ∧
      t.link.replies.map Reply.payload = [[0, 7, 58, 0, 1, 0, 150, 1, 144, 0, 5, 7, 208]] := by decide +kernel

/-- 04 section 4.8: key slots 0, 2 and 3 loaded, mask 1011b. -/
def unlocking (allowance walkPos offers : Nat) (a : Completion) : State :=
  let key : KeySlot := { loaded := true, key := List.replicate 16 7 }
  { sentTo { seated .unlocking with
      screening := judged 0b1011, allowance := allowance, walkPos := walkPos, offers := offers } a with
    keys := ((State.reset.keys.set 0 key).set 2 key).set 3 key }

theorem test_walk_skips_to_key_3 :
    let t := after (.jobCompletionTaken 0) (unlocking 2 1 1 (answerOf .unlock .denied []))
    (t.slot 0).allowance = 1 ∧ (t.slot 0).offers = 2 ∧
      t.engine.jobs = [{ slot := 0, transaction := .unlock 3 (List.replicate 16 7) }] := by decide +kernel

theorem test_second_denial_bars :
    let t := after (.jobCompletionTaken 0) (unlocking 1 4 2 (answerOf .unlock .denied []))
    (t.slot 0).state = .barred ∧ (t.slot 0).reason = .allowanceSpent ∧ (t.slot 0).stbyEn = false ∧
      (t.slot 0).screening.identity = some (cardRecord 0b1011) := by decide +kernel

theorem test_walk_without_keys :
    let t := after (.jobCompletionTaken 0)
      (sentTo { seated .unlocking with screening := judged 0b1011, allowance := 2 } (answerOf .statusRead .done [2]))
    (t.slot 0).state = .refused ∧ (t.slot 0).reason = .noKey ∧ (t.slot 0).allowance = 2 := by decide +kernel

/-- 08 section 8.9: slots 2, 5 and 7 RUNNING, slots 9 and 3 in the room queue; the card of slot 5 is pulled. -/
def windowOfLength (n : Nat) : Descriptor := { descriptorOf (cardRecord 0) 2 66 1 with length := n }

def rack : State :=
  let in_ (st : SlotState) (rank n : Nat) : Slot := { seated st with
    screening := { judged 0 with rank := some rank, window := some (windowOfLength n) } }
  let plan : List PlanWindow :=
    [{ slot := 2, rank := 10, window := windowOfLength 6000 }, { slot := 5, rank := 20, window := windowOfLength 2565 },
     { slot := 7, rank := 40, window := windowOfLength 9400 }]
  { ((((State.reset.setSlot 2 (in_ .running 10 6000)).setSlot 5 (in_ .running 20 2565)).setSlot 7
      (in_ .running 40 9400)).setSlot 9 (in_ .roomWait 30 7000)).setSlot 3 (in_ .roomWait 50 6800) with
    planner := { settings := { mode := .master, length := 25000, tolerance := 100 }, plan := plan, room := [9, 3] }
    sequencer := { Sequencer.reset with state := .running, active := layOut 50 plan, next := some 3 } }

theorem test_pull_walks_room_queue :
    let t := after (.contactRawChange 5 .late false) rack
    (t.slot 5).state = .removing ∧ (t.slot 9).state = .joining ∧ (t.slot 3).state = .roomWait ∧
      (layOut 50 t.planner.plan).map (fun w => (w.slot, w.start)) = [(2, 50), (9, 6050), (7, 13050)] ∧
      t.planner.room = [3] ∧ t.sequencer.active.map (fun w => (w.slot, w.muted)) = [(2, false), (5, true), (7, false)] := by
  decide +kernel

theorem test_adoption_reports_to_slot_9 :
    let t := after .cycleStart { after (.contactRawChange 5 .late false) rack with
      sequencer := { (after (.contactRawChange 5 .late false) rack).sequencer with markLow := true } }
    (List.finRange 12).map (fun i => (t.slot i).inbox.adoptionReports) = [0, 0, 0, 0, 0, 0, 0, 0, 0, 1, 0, 0] ∧
      t.sequencer.active.map ActiveWindow.start = [50, 6050, 13050] ∧ t.sequencer.cycleCount = 1 := by decide +kernel

/-- 08 section 8.10, steps 2, 4 and 6. -/
def locked : State := withSequencer { Sequencer.reset with state := .locked, cycleCount := 1, next := some 0 }

theorem test_marks_of_follower :
    (after (.markPulseEnd 50 25020) locked).sequencer.earlyCount = 0 ∧
    (after (.markPulseEnd 50 24900) locked).sequencer.earlyCount = 0 ∧
    (after (.markPulseEnd 50 24899) locked).sequencer.earlyCount = 1 ∧
    (after (.markPulseEnd 50 24899) locked).sequencer.cycleCount = 2 ∧
    (after (.markPulseEnd 30 100) locked).sequencer.state = .suspended ∧
    (after (.markPulseEnd 3 10000) locked).sequencer = locked.sequencer := by decide +kernel

/-- 09 section 9.8, steps 2, 5 and 7 to 8: the recorder at its cold-reset settings. -/
def recording (state : RecState) (writePos : Nat) : Recorder :=
  { Recorder.reset with state := state, writePos := writePos, written := writePos,
                        frames := [{ time := 3000, sample := sample 1 2 3 }] }

def capturing (remaining : Nat) (awaiting : Bool) (source : Trigger) : RecState :=
  .capturing { source := source, remaining := remaining, awaiting := awaiting, pre := 96, triggerIndex := 150,
               time := 3000, cycle := 0 }

theorem test_filling_reaches_ready : (after .recorderFrameTaken (withRecorder (recording .fillingPre 95))).recorder.state
    = .ready := by decide +kernel

theorem test_inhibited_host_trigger_latches :
    let t := after (.recTrigger 5) (withRecorder
      (recording (capturing 187 false { source := .slotOvercurrent, slot := some 5 }) 251))
    t.recorder.latches = [.host] ∧ t.link.replies = [{ kind := 0xD3, tag := 5, payload := [0, 1] }] := by decide +kernel

theorem test_kept_segment_chains :
    let r := { recording (capturing 1 false { source := .slotOvercurrent, slot := some 5 }) 53 with
      gateOpen := true, gateTail := some 200, overlap := some { source := .host, slot := none }, pattern := 0x020 }
    let t := after .recorderFrameTaken (withRecorder r)
    t.recorder.events.map (fun e => (e.segment, e.stop, e.triggerIndex, e.pre)) = [(0, 53, 150, 96)] ∧
      t.recorder.w = 1 ∧ t.recorder.state.capture?.map Capture.remaining = some 384 ∧
      (t.slot 5).traceRef = some 0 ∧ t.recorder.memory = [(53, sample 1 2 3)] := by decide +kernel

/-- 10 section 10.10: a notice replaced in place keeps its place; the receiver reads a PART_STATUS frame. -/
theorem test_part_status_frame :
    let bytes : List Instr := (frameBytes 0x01 7 []).map fun b => .receivedByteTaken (Character.ofByte b)
    (match execAll bytes State.reset with
     | .next t => t.link.replies.map fun r => (r.kind, r.tag, r.payload.length)
     | .fault _ | .refused _ => []) = [(0x81, 7, 13)] := by decide +kernel

/-! ### The obligations' hypotheses: the invariants -/

/-- A machine at work, with a command waiting: slot 0 RUNNING its window, slot 1 waiting for power behind slot 2's ramp,
slot 3 writing a block from set 0, slot 4 waiting for room, slot 5 BARRED, a frozen segment and a reply on the line. -/
def busy : State :=
  let w : PlanWindow := { slot := 0, rank := 20, window := descriptorOf (cardRecord 0) 2 66 1 }
  let active : ActiveWindow := { slot := 0, rank := 20, start := 50, window := w.window, muted := false }
  let reply : Reply := { kind := 0x81, tag := 1, payload := [0] }
  { ((((((State.reset.setSlot 0 (seated .running)).setSlot 1 (seated .powerWait)).setSlot 2 (seated .powering)).setSlot 3
      { seated .configuring with pin := some 0 }).setSlot 4
      { seated .roomWait with screening := { judged 0 with window := some (windowOfLength 24000) } }).setSlot 5
      { seated .barred with allowance := 0 }) with
    pending := [.gapAbort]
    engine := { queue := [], current := some { job := { slot := 3, transaction := .blockWrite 0 0 2 }, held := false,
                                               nextByte := 0, received := [], abort := false, cutBytes := [] },
                deferred := [],
                ended := none }
    arbiter := { Arbiter.reset with committed := 480, ramping := 1, queue := [{ slot := 1, power := 120 }] }
    sets := State.reset.sets.set 0 { state := .ready, length := 2, words := [1, 2], pins := 1 }
    planner := { settings := { mode := .master, length := 25000, tolerance := 100 }, plan := [w], room := [4] }
    sequencer := { Sequencer.reset with state := .running, active := [active], next := some 1
                                        run := some (WindowRun.begin active) }
    recorder := { Recorder.reset with
      state := .ready, w := 1, lastWrite := true, writePos := 96, written := 96, gateOpen := true, gateCount := 2
      events := [{ sequence := 0, segment := 0, stop := 53, triggerIndex := 150, pre := 96,
                   source := { source := .host, slot := none }, pattern := 0, time := 3000, cycle := 0,
                   gateOpen := true, refused := 0 }]
      sequence := 1, memory := [(53, sample 1 2 3), (384, sample 4 5 6)] }
    link := { Link.reset .rate115200 with
      replies := [reply], tx := some (.reply reply.frame), receiver := .receiving [2, 0x12]
      notices := [.slot 0 .running .none 1 0, .recorder .record 2 1 (some 0) 0] } }

theorem busy_steps : ∃ t, step busy = .next t := ⟨_, rfl⟩

theorem witness_StepKeepsLinkSound : busy.linkSound := by
  refine ⟨by decide, by decide +kernel, rfl, ⟨by decide, by decide⟩, ?_, by decide, by decide, by decide,
    fun _ h => absurd h (by decide)⟩
  intro h; exact absurd h (by decide)

theorem witness_StepKeepsLinesByState : busy.linesSound := by
  show ∀ i, (busy.slot i).linesFollow
  unfold Slot.linesFollow
  decide +kernel

theorem witness_StepKeepsTimersAndDebounce : busy.timersSound ∧ busy.contactsSound := by
  constructor
  · show ∀ i, (busy.slot i).timersFollow
    unfold Slot.timersFollow
    decide +kernel
  · intro _ i contact
    have h : ∀ i : SlotId, ((busy.slot i).debounceEarly.isSome ↔ (busy.slot i).earlyRaw ≠ (busy.slot i).early) ∧
        ((busy.slot i).debounceLate.isSome ↔ (busy.slot i).lateRaw ≠ (busy.slot i).late) := by decide +kernel
    cases contact
    · exact (h i).1
    · exact (h i).2

theorem witness_StepKeepsQueuesByState : busy.queuesSound := by
  unfold State.queuesSound
  decide +kernel

theorem witness_StepKeepsOneJobPerSlot : busy.queuesSound ∧ busy.jobsSound := by
  refine ⟨witness_StepKeepsQueuesByState, fun _ => ⟨fun h => absurd h (by decide), by decide +kernel, by decide +kernel,
    fun j h => absurd h (List.not_mem_nil), fun cur h hh => ?_, by decide +kernel⟩⟩
  obtain rfl : _ = cur := Option.some.inj h
  exact absurd hh (by decide)

theorem witness_StepKeepsPowerWithinBudget : busy.queuesSound ∧ busy.powerSound := by
  refine ⟨witness_StepKeepsQueuesByState, by decide +kernel, by decide +kernel, by decide +kernel, by decide, by decide,
    by decide +kernel, by decide +kernel, ?_⟩
  intro e rest h
  exact .inr (by decide)

theorem witness_StepKeepsPlanAndSel : busy.queuesSound ∧ busy.planSound ∧ busy.selSound := by
  refine ⟨witness_StepKeepsQueuesByState, ?_, by decide +kernel, by decide +kernel⟩
  unfold State.planSound State.carries
  decide +kernel

theorem witness_StepKeepsSetsPinned : busy.queuesSound ∧ busy.setsSound := by
  refine ⟨witness_StepKeepsQueuesByState, fun n => ⟨?_, ?_⟩, by decide +kernel⟩
  · have h : ∀ n : Fin 8, (n = 0 → busy.sets[n] = { state := .ready, length := 2, words := [1, 2], pins := 1 }) ∧
        (n ≠ 0 → busy.sets[n] = ParamSet.empty) := by decide +kernel
    by_cases hn : n = 0
    · rw [(h n).1 hn]; exact ⟨by decide, by decide, rfl⟩
    · rw [(h n).2 hn]; exact ⟨rfl, rfl⟩
  · revert n; decide +kernel

theorem witness_StepKeepsAllowance : busy.queuesSound ∧ busy.allowanceSound := by
  refine ⟨witness_StepKeepsQueuesByState, ?_⟩
  unfold State.allowanceSound
  decide +kernel

theorem witness_StepKeepsSequencerInMode : busy.cycleSound := by
  refine ⟨rfl, ?_, ?_, by decide, by decide, by decide⟩ <;> decide

theorem witness_StepKeepsRecorderRing : busy.recorder.sound := by
  unfold Recorder.sound
  decide +kernel

/-! ### The obligations' hypotheses: resets and the link port -/

theorem witness_StepRunsFrontCommand : State.reset.pending = [] := rfl

theorem witness_ResetAssertedReleasesLines :
    let s := { State.reset with inReset := true }
    s.inReset = true ∧ (∀ rateHigh, Instr.gapAbort ≠ .coldReset rateHigh) ∧ Instr.gapAbort ≠ .resetAsserted ∧
      ∀ i contact made, Instr.gapAbort ≠ .contactRawChange i contact made :=
  ⟨rfl, nofun, nofun, nofun⟩

theorem witness_ReceivedFrameIsItsCommand :
    let load (words : List Word) : Instr := .paramLoad 3 0 0 (BitVec.ofNat 8 words.length) words
    (hostFrame (load [0xBEEF]) = some (0x31, 3, [0, 0, 0, 1, 0xBE, 0xEF]) ∧ (load [0xBEEF]).wellFormed = true) ∧
    ((hostFrame (load (List.replicate 110 1))).map (fun p => p.2.2.length) = some 224 ∧
      (load (List.replicate 110 1)).wellFormed = true) ∧
    State.reset.inReset = false ∧ State.reset.link.receiver = .hunting ∧
    ((frameBytes 0x31 3 [0, 0, 0, 1, 0xBE, 0xEF]).map Character.ofByte).map Character.byte =
      frameBytes 0x31 3 [0, 0, 0, 1, 0xBE, 0xEF] := by decide +kernel

/-- 10 R184: a character's data bits come least significant first, and a stop bit received low is not judged. -/
theorem test_character_5C :
    (Character.ofByte 0x5C).levels = [false, false, false, true, true, true, false, true, false, true] ∧
      ({ bits := #v[false, false, true, true, true, false, true, false], stop := false } : Character).byte = 0x5C := by
  decide +kernel

/-- 10 R184, R196: TXD carries the frame being sent, then rests high; it is high in reset. -/
theorem test_txd_carries_frame :
    let s := withLink { Link.reset .rate115200 with tx := some (.reply [0x5C, 0x00]) }
    (List.range 22).map s.txd =
        [false, false, false, true, true, true, false, true, false, true,
         false, false, false, false, false, false, false, false, false, true, true, true] ∧
      ∀ k : Fin 22, ({ s with inReset := true } : State).txd k = true := by decide +kernel

def fullQueue : State := withLink { Link.reset .rate115200 with
  replies := List.replicate 4 { kind := 0x81, tag := 0, payload := [0] } }

theorem witness_FullQueueAndRestartWaitDiscard :
    let waiting := withLink { Link.reset .rate115200 with restartWait := true }
    (hostFrame (.partStatus 1)).isSome = true ∧ waiting.inReset = false ∧ waiting.link.restartWait = true ∧
      fullQueue.inReset = false ∧ fullQueue.link.restartWait = false ∧ 4 ≤ fullQueue.link.replies.length := by
  decide +kernel

def receiving (taken : List Byte) : State := withLink { Link.reset .rate115200 with receiver := .receiving taken }

theorem witness_ReceiverTakesBytes :
    State.reset.link.receiver = .hunting ∧ (receiving []).link.receiver = .receiving [] ∧
      (receiving [2, 1, 7, 8, 9]).link.receiver = .receiving [2, 1, 7, 8, 9] ∧
      [1, 7, 8, (9 : Byte)].length < (2 : Byte).toNat + 3 ∧ (240 : Byte).toNat ≤ 240 ∧ ¬ (241 : Byte).toNat ≤ 240 := by
  decide +kernel

/-- The two CRC bytes of a frame. -/
def checkOf (kind tag : Byte) (payload : List Byte) : List Byte :=
  u16 (crc (BitVec.ofNat 8 payload.length :: kind :: tag :: payload)).toNat

def awaiting (kind tag : Byte) (payload : List Byte) (hi : Byte) : State :=
  receiving (BitVec.ofNat 8 payload.length :: kind :: tag :: payload ++ [hi])

theorem witness_FrameEndIsJudged :
    let right (kind : Byte) (payload : List Byte) : Prop :=
      fromBytes (checkOf kind 7 payload) = (crc (BitVec.ofNat 8 payload.length :: kind :: 7 :: payload)).toNat ∧
        (checkOf kind 7 payload).length = 2 ∧
        (awaiting kind 7 payload ((checkOf kind 7 payload).getD 0 0)).link.restartWait = false
    fromBytes [0, 0] ≠ (crc [0, 0x01, 7]).toNat ∧ right 0x01 [] ∧ hostFrame (.partStatus 7) = some (0x01, 7, []) ∧
      (right 0x7F [] ∧ allowedLengths 0x7F = []) ∧
      right 0x01 [9] ∧ allowedLengths 0x01 ≠ [] ∧ [(9 : Byte)].length ∉ allowedLengths 0x01 := by decide +kernel

theorem witness_GapAbortDropsFrame :
    let waiting := withLink { Link.reset .rate115200 with receiver := .receiving [2], restartWait := true }
    (receiving [2]).link.receiver = .receiving [2] ∧ (receiving [2]).link.restartWait = false ∧
      waiting.link.receiver = .receiving [2] ∧ waiting.link.restartWait = true ∧
      State.reset.link.receiver = .hunting := by decide +kernel

def sending (replies : List Reply) (notices : List Notice) (tx : Option Transmission) (restartWait : Bool) : State :=
  withLink { Link.reset .rate115200 with replies := replies, notices := notices, tx := tx, restartWait := restartWait }

def someReply : Reply := { kind := 0x82, tag := 1, payload := [0] }
def someNotice : Notice := .slot 3 .running .none 1 0

theorem witness_TransmitterSendsRepliesThenNotices :
    let a := sending [someReply] [] none false
    let b := sending [] [someNotice] none false
    let c := sending [someReply] [] (some (.reply someReply.frame)) false
    let d := sending [someReply, someReply] [] (some (.reply someReply.frame)) true
    let e := sending [] [] (some (.notice someNotice.frame)) false
    (a.link.tx = none ∧ a.link.replies = [someReply]) ∧
      (b.link.tx = none ∧ b.link.replies = [] ∧ b.link.notices = [someNotice]) ∧
      (c.link.tx = some (.reply someReply.frame) ∧ c.link.replies = [someReply] ∧ c.link.restartWait = false) ∧
      (d.link.tx = some (.reply someReply.frame) ∧ d.link.replies = someReply :: [someReply] ∧ [someReply] ≠ []) ∧
      e.link.tx = some (.notice someNotice.frame) ∧
      (State.reset.link.tx = none ∧ State.reset.link.replies = [] ∧ State.reset.link.notices = []) := by decide +kernel

/-- The busy machine with the WARM_RESTART reply on the line. -/
def restarting : State := { busy with link := (sending [someReply] [] (some (.reply someReply.frame)) true).link }

theorem witness_WarmRestartCarriesSlots :
    restarting.inReset = false ∧ restarting.link.restartWait = true ∧ restarting.link.replies = [someReply] ∧
      restarting.link.tx = some (.reply someReply.frame) ∧ (∀ i, (restarting.slot i).inbox.completions = []) ∧
      (restarting.slot 0).state.restarted = false ∧ (restarting.slot 1).state.restarted = true ∧
      (restarting.engine.current.map fun cur => (cur.job.slot, cur.held)) = some (3, false) ∧
      (restarting.slot 3).state.restarted = true ∧ restarting.recorder.state ≠ .stopped := by decide +kernel

theorem witness_WarmRestartCarriesSlots_sound :
    restarting.queuesSound ∧ restarting.planSound ∧ restarting.powerSound ∧ restarting.setsSound :=
  ⟨witness_StepKeepsQueuesByState, witness_StepKeepsPlanAndSel.2.1, witness_StepKeepsPowerWithinBudget.2,
    witness_StepKeepsSetsPinned.2⟩

/-! ### The obligations' hypotheses: host commands -/

theorem witness_Takes : State.reset.takes ∧ busy.takes ∧ rack.takes ∧ queueOfTwo.takes := by
  unfold State.takes
  decide +kernel

theorem witness_WarmRestartEntersWait : State.reset.takes := reset_takes
theorem witness_ReportsOfPartAndCycle : rack.takes := witness_Takes.2.2.1
theorem witness_SetSlotTimesClamps : busy.takes := witness_Takes.2.1

theorem witness_ReportsOfSlot : (∀ st, (within st).takes) ∧ (
    ((within .running).slot 0).screening.window = some (descriptorOf (cardRecord 0) 2 66 1) ∧
      ((within .running).slot 0).screening.identity = some (cardRecord 0) ∧ (cardRecord 0).length ≤ 64 ∧
      (State.reset.slot 0).screening.window = none ∧ (State.reset.slot 0).screening.identity = none) :=
  ⟨within_takes, by decide +kernel⟩

theorem witness_SetPowerJudged : (queueOfTwo.takes ∧ State.reset.takes) ∧ (
    let inRange (v : PowerFields) : Prop :=
      10 ≤ v.budget.toNat ∧ v.budget.toNat ≤ 20000 ∧ 1 ≤ v.rampLimit.toNat ∧ v.rampLimit.toNat ≤ 4
    let covered (v : PowerFields) : Prop :=
      queueOfTwo.arbiter.committed ≤ v.budget.toNat ∧ queueOfTwo.arbiter.ramping ≤ v.rampLimit.toNat
    (¬ inRange (budget 9) ∧ ¬ inRange (budget 20001) ∧ ¬ inRange { budget 2000 with rampLimit := 0 } ∧
      ¬ inRange { budget 2000 with rampLimit := 5 }) ∧
    (inRange (budget 1749) ∧ ¬ covered (budget 1749)) ∧ (inRange (budget 1850) ∧ covered (budget 1850)) ∧
    (1850 < queueOfTwo.arbiter.budget ∧ { slot := 10, power := 1900 } ∈ queueOfTwo.arbiter.queue) ∧
    ({ slot := 1, power := 100 } ∈ queueOfTwo.arbiter.queue ∧ 100 ≤ (budget 1850).budget.toNat) ∧
    (0 : SlotId) ∉ queueOfTwo.arbiter.queue.map PowerEntry.slot ∧ State.reset.arbiter.queue = []) :=
  ⟨⟨witness_Takes.2.2.2, reset_takes⟩, by decide +kernel⟩

theorem witness_SetPowerJudged_queues : queueOfTwo.queuesSound := by
  unfold State.queuesSound
  decide +kernel

theorem witness_SetCycleJudged : (rack.takes ∧ State.reset.takes) ∧ (
    let inRange (mode : Byte) (length : Long) (tolerance : Word) : Prop :=
      mode.toNat ≤ 2 ∧ 2500 ≤ length.toNat ∧ length.toNat ≤ 500000 ∧ 10 ≤ tolerance.toNat ∧ tolerance.toNat ≤ 500
    let plan := rack.planner.plan
    let ends := 50 + (plan.map fun w => w.window.length).sum
    (¬ inRange 3 25000 100 ∧ ¬ inRange 1 2499 100 ∧ ¬ inRange 1 500001 100 ∧ ¬ inRange 1 25000 9 ∧
      ¬ inRange 1 25000 501) ∧
    (inRange 1 2500 10 ∧ inRange 2 500000 500 ∧ inRange 0 25000 100) ∧
    -- a change of mode while a slot runs
    (CycleMode.off ≠ rack.planner.settings.mode ∧ rack.planner.settings.mode ≠ .off ∧ (rack.slot 2).state = .running) ∧
    -- the pending plan at the plan limit and past it
    (plan ≠ [] ∧ ends = 18015 ∧ ¬ ends ≤ 18264 - 250 ∧ ends ≤ 18265 - 250 ∧
      rack.planner.settings.mode = .master) ∧
    -- a new mode, a growing span, no walk
    (State.reset.planner.settings.mode = .off ∧ CycleMode.master ≠ .off ∧ State.reset.planner.plan = []) ∧
    (25000 - 300 < 25001 - 300 ∧ ¬ 25000 - 300 < 25000 - 300) ∧
    (9 : SlotId) ∈ rack.planner.room ∧ (0 : SlotId) ∉ rack.planner.room ∧ rack.planner.room.Nodup) :=
  ⟨⟨witness_Takes.2.2.1, reset_takes⟩, by
    dsimp only
    refine ⟨?_, ?_, ?_, ?_, ?_, ?_, ?_, ?_⟩ <;> decide +kernel⟩

theorem witness_ParkAndDisablePowerDown : (∀ st, (within st).takes) ∧ (
    ((within .powerWait).slot 0).state ∈ [.powerWait, .powering, .resetHold, .readyWait, .configuring, .roomWait,
      .joining, SlotState.running] ∧
    ((within .running).slot 0).state ∈ [.powerWait, .powering, .resetHold, .readyWait, .configuring, .roomWait,
      .joining, SlotState.running] ∧
    ((within .barred).slot 0).state ≠ .disabled ∧ ((within .disabled).slot 0).state = .disabled ∧
    ((within .running).slot 0).inbox.completions = []) :=
  ⟨within_takes, by decide +kernel⟩

theorem witness_SlotsReturnOnCommand : (∀ st, (within st).takes) ∧ (
    ((within .parked).slot 0).state = .parked ∧
    ((within .refused).slot 0).state ∈ [.refused, .faulted, SlotState.parked] ∧
    ((within .faulted).slot 0).state ∈ [.refused, .faulted, SlotState.parked] ∧
    ((within .disabled).slot 0).state = .disabled ∧
    (((within .barred).slot 0).state = .barred ∧ (within .barred).policy.frozen = false) ∧
    -- what the contacts call for: each of the four
    (contactState { seated .disabled with allowance := 0 } = .barred ∧
      contactState { seated .disabled with early := false } = .empty ∧
      contactState { seated .disabled with late := false } = .mating ∧
      contactState (seated .disabled) = .identifying)) :=
  ⟨within_takes, by decide +kernel⟩

theorem witness_ConsentDecides : (∀ c, (with0 c).takes) ∧ ((within .consentWait).slot 0).state = .consentWait ∧
    (∃ r, ((with0 { seated .consentWait with screening := judged 8 }).slot 0).screening.identity = some r ∧
      ∃ k < 4, (r.getD 10 0).getLsbD k = true) ∧
    ¬ ∃ r, ((with0 { seated .consentWait with screening := judged 0xF0 }).slot 0).screening.identity = some r ∧
      ∃ k < 4, (r.getD 10 0).getLsbD k = true := by
  refine ⟨fun _ => takes_of_link rfl rfl, by decide, ⟨cardRecord 8, rfl, 3, by decide, by decide +kernel⟩, ?_⟩
  rintro ⟨r, hr, k, hk, h⟩
  obtain rfl : cardRecord 0xF0 = r := Option.some.inj hr
  have : ∀ k < 4, ((cardRecord 0xF0).getD 10 0).getLsbD k = false := by decide +kernel
  rw [this k hk] at h
  exact absurd h (by decide)

theorem witness_SlotCommandsRefused : ((∀ st, (within st).takes) ∧ { within .barred with policy := { Policy.reset with frozen := true } }.takes) ∧ (
    let frozen := { within .barred with policy := { Policy.reset with frozen := true } }
    11 < (12 : Byte).toNat ∧ 1 < (2 : Byte).toNat ∧ (1 : Byte).toNat ≤ 1 ∧
    ((within .identifying).slot 0).state ≠ .consentWait ∧
    ((within .identifying).slot 0).state ∉ [.powerWait, .powering, .resetHold, .readyWait, .configuring, .roomWait,
      .joining, SlotState.running] ∧
    ((within .identifying).slot 0).state ≠ .parked ∧
    ((within .identifying).slot 0).state ∉ [.refused, .faulted, SlotState.parked] ∧
    ((within .identifying).slot 0).state ≠ .disabled ∧ ((within .identifying).slot 0).state ≠ .barred ∧
    (frozen.slot 0).state = .barred ∧ frozen.policy.frozen = true) :=
  ⟨⟨within_takes, takes_of_link rfl rfl⟩, by decide +kernel⟩

def frozen : State := { State.reset with policy := { Policy.reset with frozen := true } }

theorem witness_PolicyWriteReadFreeze : (frozen.takes ∧ State.reset.takes) ∧ (
    let bad (v : PolicyFields) : Prop := 15 < v.entry.toNat ∨ 2 < v.kind.toNat ∨
      v.kind.toNat = 1 ∧ (1 < v.action.toNat ∨ v.rank.toNat = 0 ∨ 7 < v.set.toNat ∧ v.set.toNat ≠ 255)
    let v : PolicyFields := { entry := 15, kind := 1, pattern := 0, mask := 0, action := 1, rank := 1, set := 7 }
    frozen.policy.frozen = true ∧ State.reset.policy.frozen = false ∧
    (bad { v with entry := 16 } ∧ bad { v with kind := 3 } ∧ bad { v with action := 2 } ∧ bad { v with rank := 0 } ∧
      bad { v with set := 8 } ∧ bad { v with set := 254 }) ∧
    ¬ bad v ∧ ¬ bad { v with set := 255 } ∧ v.entry.toNat = (15 : Fin 16).val ∧ v.kind.toNat = 1 ∧
    v.action.toNat = PolicyAction.consent.code ∧ v.rank.toNat ≠ 0 ∧ v.set.toNat = (7 : Fin 8).val ∧
    (0 : Byte).toNat = 0 ∧ (2 : Byte).toNat = 2 ∧ 15 < (16 : Byte).toNat) := by
  refine ⟨⟨takes_of_link rfl rfl, reset_takes⟩, ?_, ?_, ⟨?_, ?_, ?_, ?_, ?_, ?_⟩, ?_, ?_, ?_⟩ <;> decide

theorem witness_PolicyDefaultReplaced :
    frozen.policy.frozen = true ∧ State.reset.policy.frozen = false ∧ 1 < (2 : Byte).toNat ∧
    (1 : Byte).toNat = DefaultAction.consent.code ∧ (0 : Byte).toNat = DefaultAction.refuse.code ∧
    (let p := { Policy.reset with default := .consent }
     p.default = .consent ∧ p.lowest .reject 5 = none ∧ p.lowest .accept 5 = none) ∧
    frozen.takes ∧ State.reset.takes := by
  unfold State.takes
  decide +kernel

theorem witness_KeysLoadedAndErased : (frozen.takes ∧ State.reset.takes) ∧ (
    (List.replicate 16 (1 : Byte)).length = 16 ∧ frozen.policy.frozen = true ∧ State.reset.policy.frozen = false ∧
    3 < (4 : Byte).toNat ∧ (3 : Byte).toNat = (3 : Fin 4).val) :=
  ⟨⟨takes_of_link rfl rfl, reset_takes⟩, by decide +kernel⟩

/-- Set 0 as given. -/
def withSet (p : ParamSet) : State := { State.reset with sets := State.reset.sets.set 0 p }

def loading (length : Nat) (words : List Word) : ParamSet := { state := .loading, length := length, words := words, pins := 0 }

theorem witness_ParamBeginFreeStatus : (∀ p, (withSet p).takes) ∧ (
    7 < (8 : Byte).toNat ∧ (7 : Byte).toNat = (7 : Fin 8).val ∧
    0 < (withSet { state := .ready, length := 1, words := [1], pins := 1 }).sets[0].pins ∧
    State.reset.sets[7].pins = 0 ∧ (0 : Word).toNat < 1 ∧ 512 < (513 : Word).toNat ∧ 1 ≤ (1 : Word).toNat ∧
    (512 : Word).toNat ≤ 512) :=
  ⟨fun _ => takes_of_link rfl rfl, by decide +kernel⟩

theorem witness_ParamLoadAppendsWords : (∀ p, (withSet p).takes) ∧ (
    let p := (withSet (loading 3 [7])).sets[0]
    (7 < (8 : Byte).toNat ∧ (0 : Byte).toNat = (0 : Fin 8).val) ∧
    0 < (withSet { state := .ready, length := 1, words := [1], pins := 1 }).sets[0].pins ∧
    (State.reset.sets[0].pins = 0 ∧ State.reset.sets[0].state ≠ .loading) ∧
    (p.pins = 0 ∧ p.state = .loading) ∧
    (¬ (1 ≤ (0 : Byte).toNat) ∧ ¬ (111 : Byte).toNat ≤ 110) ∧
    -- one word carried for a count of two; a wrong offset; too many words; one short of the end; the end
    ([(1 : Word)].length ≠ (2 : Byte).toNat) ∧
    ((2 : Word).toNat ≠ p.words.length) ∧ ((1 : Word).toNat = p.words.length ∧ ¬ 1 + 3 ≤ p.length) ∧
    (1 + 1 < p.length ∧ 1 + 2 = p.length)) :=
  ⟨fun _ => takes_of_link rfl rfl, by decide +kernel⟩

/-! ### The obligations' hypotheses: contacts, timers, frames, the engine -/

theorem witness_ContactChangeDebouncedOrRemoves :
    let present : List SlotState := [.identifying, .consentWait, .unlocking, .powerWait, .powering, .resetHold, .readyWait,
      .configuring, .roomWait, .joining, .running, .parked, .refused, .faulted, .cooldown]
    true ≠ (State.reset.slot 0).earlyRaw ∧ (true ≠ (State.reset.slot 0).lateRaw ∧ ¬ true = false) ∧
    (false ≠ ((within .removing).slot 0).lateRaw ∧ ((within .removing).slot 0).state ∉ present) ∧
    (false ≠ ((within .running).slot 0).lateRaw ∧ ((within .running).slot 0).state ∈ present) ∧
    (false ≠ ((within .cooldown).slot 0).lateRaw ∧ ((within .cooldown).slot 0).state ∈ present) ∧
    false = (State.reset.slot 0).earlyRaw ∧ false = (State.reset.slot 0).lateRaw := by decide +kernel

/-- A slot whose debounces run. -/
def bouncing (st : SlotState) (earlyRaw lateRaw late : Bool) : State := with0 { seated st with
  earlyRaw := earlyRaw, lateRaw := lateRaw, late := late, debounceEarly := some 50, debounceLate := some 50 }

theorem witness_DebounceExpiryActsByState :
    let live (s : State) (st : SlotState) (earlyRaw lateRaw late : Bool) : Bool :=
      !s.inReset && (s.slot 0).debounceEarly.isSome && (s.slot 0).debounceLate.isSome && decide ((s.slot 0).state = st) &&
        (s.slot 0).earlyRaw == earlyRaw && (s.slot 0).lateRaw == lateRaw && (s.slot 0).late == late
    let others : List SlotState := [.empty, .mating, .removing, .disabled, .barred]
    ((State.reset.slot 0).debounceEarly = none ∧ (State.reset.slot 0).debounceLate = none) ∧
    live (bouncing .empty true true false) .empty true true false = true ∧
    live (bouncing .empty true true true) .empty true true true = true ∧
    live (bouncing .mating false false false) .mating false false false = true ∧
    live (bouncing .mating true true false) .mating true true false = true ∧
    live (bouncing .removing false false false) .removing false false false = true ∧
    live (bouncing .removing true true false) .removing true true false = true ∧
    (live (bouncing .running false false true) .running false false true = true ∧ SlotState.running ∉ others) ∧
    (live (bouncing .identifying true true true) .identifying true true true = true ∧ SlotState.identifying ∉ others) ∧
    live (bouncing .disabled true false true) .disabled true false true = true ∧
    live (bouncing .barred false true false) .barred false true false = true := by decide +kernel

theorem witness_TimerExpiriesActByState :
    let slot (st : SlotState) : Slot := (within st).slot 0
    let polling := { within .readyWait with engine := { Engine.reset with
      queue := [{ slot := 0, transaction := .statusRead }] } }
    (slot .cooldown).timers.cooldown.isSome = true ∧ (slot .cooldown).reason ≠ .setupBus ∧
    ({ slot .cooldown with reason := .setupBus }).reason = .setupBus ∧
    (slot .consentWait).timers.consent.isSome = true ∧ (slot .powering).timers.ramp.isSome = true ∧
    (slot .readyWait).timers.ready.isSome = true ∧ (slot .resetHold).timers.resetHold.isSome = true ∧
    (slot .readyWait).timers.poll.isSome = true ∧ polling.engine.hasJob 0 = true ∧
    (within .readyWait).engine.hasJob 0 = false ∧
    (slot .running).timers = StateTimers.idle ∧ (slot .running).state ∉ [.cooldown, .consentWait, .powering, .resetHold,
      SlotState.readyWait] := by decide +kernel

/-- A ramp in POWERING with its runs as given and a frame on its way. -/
def ramping (runOver good : Nat) (f : MonitorSample) : State :=
  framed { seated .powering with overCurrentRun := runOver, pgGoodRun := good } f

/-- A RUNNING slot with its runs as given and a frame on its way. -/
def serving (runOver lost : Nat) (f : MonitorSample) : State :=
  framed { seated .running with overCurrentRun := runOver, pgLostRun := lost } f

theorem witness_SlotFrameRunsChecks :
    let runOver (s : State) (f : MonitorSample) : Nat :=
      if s.monitor.inrush < f.currents[0].toNat then (s.slot 0).overCurrentRun + 1 else 0
    let good (s : State) (f : MonitorSample) : Nat := if f.pg.getLsbD 0 then (s.slot 0).pgGoodRun + 1 else 0
    let run (s : State) (f : MonitorSample) : Nat := if 150 < f.currents[0].toNat then (s.slot 0).overCurrentRun + 1 else 0
    let lost (s : State) (f : MonitorSample) : Nat := if f.pg.getLsbD 0 then 0 else (s.slot 0).pgLostRun + 1
    let above := sample 401 2000 0
    let at_ := sample 400 2000 1
    ((ramping 3 4 above).slot 0).inbox.frames = [{ time := 10, sample := above }] ∧
    ((ramping 3 4 above).slot 0).state = .powering ∧ (ramping 3 4 above).monitor.filter = 5 ∧
    (runOver (ramping 3 4 above) above = 4 ∧ good (ramping 3 4 above) above = 0) ∧
    runOver (ramping 4 4 above) above = 5 ∧
    (runOver (ramping 4 4 at_) at_ = 0 ∧ good (ramping 4 4 at_) at_ = 5 ∧
      (0 : SlotId) ∉ (ramping 4 4 at_).arbiter.queue.map PowerEntry.slot ∧ (ramping 4 4 at_).arbiter.queue = []) ∧
    (((serving 3 3 above).slot 0).state = .running ∧ ((serving 3 3 above).slot 0).threshold = some 150) ∧
    (run (serving 3 3 (sample 151 2000 0)) (sample 151 2000 0) = 4 ∧
      lost (serving 3 3 (sample 151 2000 0)) (sample 151 2000 0) = 4) ∧
    run (serving 4 3 (sample 151 2000 0)) (sample 151 2000 0) = 5 ∧
    (run (serving 4 4 (sample 150 2000 0)) (sample 150 2000 0) = 0 ∧
      lost (serving 4 4 (sample 150 2000 0)) (sample 150 2000 0) = 5) ∧
    ((framed (seated .parked) above).slot 0).state ∉ [.powering, .resetHold, .readyWait, .configuring, .roomWait, .joining,
      SlotState.running] := by decide +kernel

theorem witness_MonitorFramePresentsRailDip : State.reset.inReset = false ∧
    (sample 0 1999 0).rail.toNat < State.reset.monitor.railDip ∧
    ¬ (sample 0 2000 0).rail.toNat < State.reset.monitor.railDip := by decide +kernel

/-- The engine at work on a transaction of slot 0. -/
def working (t : Transaction) (held abort : Bool) : CurrentJob :=
  { job := { slot := 0, transaction := t }, held := held, nextByte := 0, received := [], abort := abort, cutBytes := [] }

theorem witness_EngineEndsJobs :
    let s (cur : CurrentJob) : State := { State.reset with engine := { Engine.reset with current := some cur } }
    let read := working (.identRead 0 8) false false
    let card : List Byte := [0xD7, 32, 0, 0, 0, 0, 0, 0]
    (s read).inReset = false ∧ (s read).engine.current = some read ∧ read.held = false ∧ read.abort = false ∧
    (working .statusRead false true).abort = true ∧
    (read.job.transaction = .identRead 0 8 ∧ (read.received ++ card).length = 8) ∧
    ((working .statusRead false false).job.transaction = .statusRead ∧ ([] : List Byte) ++ [1] = [1]) ∧
    ((working (.blockWrite 0 0 2) false false).job.transaction = .blockWrite 0 0 2 ∧ ([] : List Byte) ++ [] = []) ∧
    ((working (.unlock 1 []) false false).job.transaction = .unlock 1 [] ∧ (0x3C : Byte) ≠ 0xC3 ∧ (0x3D : Byte) ≠ 0x3C ∧
      (0x3D : Byte) ≠ 0xC3) ∧
    ((working (.commit 2) false false).job.transaction = .commit 2 ∧ (0x5A : Byte) ≠ 0xA5 ∧ (0x5B : Byte) ≠ 0x5A ∧
      (0x5B : Byte) ≠ 0xA5) ∧
    ((with0 { seated .identifying with standby := .settling }).slot 0).standby = .settling ∧
    ((within .identifying).slot 0).standby ≠ .settling ∧
    -- byte boundaries: the last before the end, the end itself, a byte of the card's too few; a refused byte
    (10 < read.job.transaction.sentLength + read.job.transaction.answerLength ∧ 7 = 10 - read.job.transaction.sentLength) ∧
    ¬ 11 < read.job.transaction.sentLength + read.job.transaction.answerLength ∧
    ¬ 6 = 10 - read.job.transaction.sentLength ∧
    (read.received ++ card).length = read.job.transaction.answerLength ∧
    ([] : List Byte).length ≠ read.job.transaction.answerLength ∧
    2 < read.job.transaction.sentLength ∧ read.job.transaction.sentLength ≤ 3 ∧
    [(0x41 : Byte), 0, 8][read.nextByte + 2]? = some 8 ∧ [(0x41 : Byte), 0, 8][read.nextByte + 3]? = none ∧
    (working .statusRead true false).held = true ∧ (1 : SlotId) ≠ read.job.slot := by
  refine ⟨rfl, rfl, rfl, rfl, rfl, ⟨rfl, rfl⟩, ⟨rfl, rfl⟩, ⟨rfl, rfl⟩, ⟨rfl, ?_⟩, ⟨rfl, ?_⟩, ?_, ?_, ?_, ?_, ?_, ?_, ?_, ?_,
    ?_⟩ <;> decide

/-- 02 R31: a STATUS_READ takes 20 bit times, 50 µs; 42h passes most significant bit first and is accepted, then the
status byte, which the engine accepts. -/
theorem test_status_read_on_pair :
    let t := after (.jobComplete (.finished [0x01]))
      { within .readyWait with engine := { Engine.reset with current := some (working .statusRead false false) } }
    (t.engine.ended.map fun r => (r.slot, r.symbols)) = some (0, .start ::
      (([false, true, false, false, false, false, true, false, false] ++
        [false, false, false, false, false, false, false, true, false]).map BusSymbol.bit ++ [.stop])) := by
  decide +kernel

/-- 02 R31, R39: the card's first byte passes, then it holds the clock beyond 10 ms: byte 4 fails, and what passed stands
on the pair. -/
theorem test_timeout_in_answer_part :
    let t := after (.busTimeout ⟨4, [0xD7]⟩)
      { within .identifying with engine := { Engine.reset with current := some (working (.identRead 0 8) false false) } }
    (t.engine.ended.map fun r => (r.slot, r.symbols)) =
        some (0, .start :: acceptedSymbols [0x41, 0, 8, 0xD7] ++ [.stop]) ∧
      ((t.slot 0).inbox.completions.map fun c => (c.outcome, c.byteIndex)) = [(.busTimeout, some 4)] := by
  decide +kernel

/-- 02 R37, R44: a card is pulled while a block passes, its set is freed, and the byte in flight ends as it was read. -/
theorem test_cut_write_keeps_words :
    let s : State := { with0 { seated .configuring with
        screening := { judged 0 with paramSet := some 0 }, pin := some 0 } with
      sets := State.reset.sets.set 0 { state := .ready, length := 1, words := [0xABCD], pins := 1 }
      engine := { Engine.reset with current := some (working (.blockWrite 0 0 1) false false) } }
    let t := after (.paramFree 7 0) (after (.contactRawChange 0 .late false) s)
    t.sets[0].state = .empty ∧
      ((after (.jobComplete (.boundary 5 [])) t).engine.ended.map fun r => (r.slot, r.symbols)) =
        some (0, .start :: acceptedSymbols [0x44, 0, 0, 1, 0xAB] ++ [.stop]) := by decide +kernel

/-- 02 R41: the engine goes on at a byte boundary with what has passed so far. -/
theorem test_boundary_moves_on :
    let t := after (.jobComplete (.boundary 5 [0xD7, 32]))
      { within .identifying with engine := { Engine.reset with current := some (working (.identRead 0 8) false false) } }
    t.engine.current = some { working (.identRead 0 8) false false with nextByte := 5, received := [0xD7, 32] } ∧
      t.pairLevels 0 = (true, false) ∧ t.pairLevels 1 = (true, true) := by decide +kernel

/-! ### The obligations' hypotheses: completions -/

def header (tag len : Byte) : List Byte := [tag, len, 0x3A, 0x10, 0x22, 0x07, 0, 0]

/-- IDENTIFYING with the header of the card kept and the rest on its way. -/
def identifying (kept : List Byte) (a : Completion) : State := sentTo { seated .identifying with readBuffer := kept } a

/-- The machine with a table, a mode and a budget, for the card of 07 section 7.9. -/
def screening (keys : Byte) (p : Policy) (settings : CycleSettings) (budget : Nat) : State :=
  { identifying ((cardRecord keys).take 8) (answerOf .identRead .done ((cardRecord keys).drop 8)) with
    policy := p, planner := { Planner.reset with settings := settings }, arbiter := { Arbiter.reset with budget := budget } }

theorem witness_IdentityReadAndScreened :
    let headed (a : List Byte) : Prop := a.getD 0 0 = 0xD7 ∧ 32 ≤ (a.getD 1 0).toNat ∧ (a.getD 1 0).toNat ≤ 64
    let a := answerOf .identRead .done (header 0xD7 32)
    (((identifying [] a).slot 0).inbox.completions = [a] ∧ ((identifying [] a).slot 0).state = .identifying ∧
      ((identifying [] a).slot 0).readBuffer = [] ∧ a.kind = .identRead ∧ a.outcome = .done) ∧
    (¬ headed (header 0xD6 32) ∧ ¬ headed (header 0xD7 31) ∧ ¬ headed (header 0xD7 65) ∧ headed (header 0xD7 32) ∧
      headed (header 0xD7 64)) ∧
    ((answerOf .identRead .cardNak []).outcome = .cardNak ∧ (answerOf .identRead .busTimeout []).outcome = .busTimeout ∧
      (answerOf .identRead .aborted []).outcome = .aborted) ∧
    ((sentTo (seated .running) a).slot 0).state ∉ [.identifying, .unlocking, .readyWait, SlotState.configuring] := by
  decide +kernel

theorem witness_IdentityReadAndScreened_record :
    let valid (r : List Byte) : Prop :=
      (r.map BitVec.toNat).sum % 256 = 0 ∧ (r.getD 11 0).toNat / 16 < 3 ∧ (r.getD 11 0).toNat % 16 < 3 ∧
      fieldAt r 14 2 ≤ 256 ∧ fieldAt r 16 2 ≤ 256 ∧ 0 < fieldAt r 12 2 ∧ fieldAt r 12 2 ≤ 2500 ∧
      (fieldAt r 28 2 = 0 ∨ 0 < (r.getD 30 0).toNat ∧ (r.getD 30 0).toNat ≤ 32)
    let s := screening 0 policyTable { mode := .master, length := 25000, tolerance := 100 } 2000
    let kept := (s.slot 0).readBuffer
    kept ≠ [] ∧ kept ++ (cardRecord 0).drop 8 = cardRecord 0 ∧ valid (cardRecord 0) ∧
      ¬ valid ((cardRecord 0).take 31 ++ [(cardRecord 0).getD 31 0 + 1]) := by decide +kernel

theorem witness_IdentityReadAndScreened_verdict :
    let allow := policyTable
    let consent := { Policy.reset with default := .consent }
    let d := descriptorOf (cardRecord 0) 2 66 1
    Policy.reset.verdict (identCode (cardRecord 0)) = .refuse .noPolicy none ∧
    allow.verdict (identCode (cardRecord 0)) = .accept .allow (some 1) 20 (some 3) ∧
    consent.verdict (identCode (cardRecord 0)) = .accept .consent none 255 none ∧
    windowOf ((cardRecord 0).take 22 ++ u16 11361 ++ (cardRecord 0).drop 24) = none ∧
    windowOf (cardRecord 0) = some (d, clampFlagsOf (cardRecord 0) d) ∧
    usableSpan { mode := .master, length := 2864, tolerance := 100 } < d.length ∧
    d.length ≤ usableSpan { mode := .master, length := 2865, tolerance := 100 } ∧
    119 < fieldAt (cardRecord 0) 12 2 ∧ fieldAt (cardRecord 0) 12 2 ≤ 120 ∧
    identLocked (cardRecord 8) = true ∧ identLocked (cardRecord 0xF0) = false := by decide +kernel

theorem witness_UnlockWalkOffersAndCharges :
    let s := unlocking 2 1 1 (answerOf .unlock .denied [])
    let c := s.slot 0
    let offered (k : Fin 4) : Bool := decide (c.walkPos ≤ k.val) && s.keys[k].loaded && (cardRecord 0b1011 |>.getD 10 0).getLsbD k.val
    (c.inbox.completions = [answerOf .unlock .denied []] ∧ c.state = .unlocking ∧
      c.screening.identity = some (cardRecord 0b1011)) ∧
    (offered 3 = true ∧ ∀ l, l < 3 → offered l = false) ∧ 1 < c.allowance ∧
    ((unlocking 1 4 2 (answerOf .unlock .denied [])).slot 0).allowance ≤ 1 ∧
    (∀ k : Fin 4, ¬ ((unlocking 2 4 2 (answerOf .unlock .denied [])).slot 0).walkPos ≤ k.val) ∧
    (([2] : List Byte).getD 0 0).getLsbD 1 = true ∧ (([1] : List Byte).getD 0 0).getLsbD 1 = false ∧
    (answerOf .unlock .granted []).outcome = .granted ∧ (answerOf .statusRead .cardNak []).outcome = .cardNak := by
  decide +kernel

/-- READY_WAIT with a status read answered, the parameter set and the set 0 as given. -/
def readying (set : Option (Fin 8)) (p : ParamSet) (pollDue : Bool) (a : Completion) : State :=
  { sentTo { seated .readyWait with screening := { judged 0 with paramSet := set }, pollDue := pollDue } a with
    sets := State.reset.sets.set 0 p }

def readySet (length : Nat) : ParamSet :=
  { state := .ready, length := length, words := List.replicate length 1, pins := 0 }

theorem witness_ReadyCardIsConfiguredOrInserted :
    let a := answerOf .statusRead .done [1]
    let b := answerOf .statusRead .done [2]
    let s := readying none ParamSet.empty false a
    ((s.slot 0).inbox.completions = [a] ∧ (s.slot 0).state = .readyWait ∧ a.kind = .statusRead ∧ a.outcome = .done ∧
      (a.data.getD 0 0).getLsbD 0 = true ∧ (s.slot 0).screening.paramSet = none) ∧
    (((readying (some 0) ParamSet.empty false a).slot 0).screening.paramSet = some 0 ∧
      (readying (some 0) ParamSet.empty false a).sets[0].state ≠ .ready) ∧
    ((readying (some 0) (readySet 97) false a).sets[0].state = .ready ∧
      ((readying (some 0) (readySet 97) false a).slot 0).configArea < 97) ∧
    (96 ≤ ((readying (some 0) (readySet 96) false a).slot 0).configArea ∧ 1 ≤ (readySet 96).length) ∧
    ((b.data.getD 0 0).getLsbD 0 = false ∧ b.outcome ∈ [.done, .cardNak, JobOutcome.busTimeout] ∧
      ((readying none ParamSet.empty true b).slot 0).pollDue = true ∧
      (readying none ParamSet.empty true b).engine.hasJob 0 = false) ∧
    ((readying none ParamSet.empty false b).slot 0).pollDue = false := by decide +kernel

/-- CONFIGURING without a pin, an announcement of set 0 on its way. -/
def announced (set : Option (Fin 8)) (p : ParamSet) : State :=
  { with0 { seated .configuring with
      reason := .paramsWait, screening := { judged 0 with paramSet := set },
      inbox := { (seated .configuring).inbox with announcements := [0] } } with
    sets := State.reset.sets.set 0 p }

theorem witness_ReadyCardIsConfiguredOrInserted_announcement :
    let s := announced (some 0) (readySet 96)
    ((s.slot 0).inbox.announcements = [0] ∧ (s.slot 0).state = .configuring ∧ (s.slot 0).pin = none ∧
      (s.slot 0).screening.paramSet = some 0 ∧ s.sets[0].state = .ready ∧ (s.slot 0).reason = .paramsWait ∧
      s.sets[0].length ≤ (s.slot 0).configArea ∧ 1 ≤ s.sets[0].length) ∧
    ((announced (some 0) (readySet 97)).slot 0).configArea < (announced (some 0) (readySet 97)).sets[0].length ∧
    ((announced (some 1) (readySet 96)).slot 0).screening.paramSet ≠ some 0 := by decide +kernel

/-- A transfer from set 0 of 64 words with a count of words written and a completion on its way. -/
def transferring (count : Nat) (a : Completion) : State :=
  { sentTo { seated .configuring with
      screening := { judged 0 with paramSet := some 0 }, pin := some 0, transferCount := count } a with
    sets := State.reset.sets.set 0 { readySet 64 with pins := 1 } }

theorem witness_TransferWritesBlocksAndCommits :
    let a := { answerOf .blockWrite .done [] with words := 32 }
    (((transferring 0 a).slot 0).inbox.completions = [a] ∧ ((transferring 0 a).slot 0).state = .configuring ∧
      ((transferring 0 a).slot 0).pin = some 0 ∧ a.kind = .blockWrite ∧ a.outcome = .done) ∧
    (((transferring 0 a).slot 0).transferCount + a.words < (transferring 0 a).sets[0].length ∧
      (transferring 32 a).sets[0].length ≤ ((transferring 32 a).slot 0).transferCount + a.words) ∧
    ((answerOf .commit .accepted [0x5A]).outcome = .accepted ∧ (answerOf .commit .rejected [0xA5]).outcome = .rejected ∧
      (answerOf .commit .cardNak []).outcome = .cardNak ∧ (answerOf .commit .cardNak []).kind = .commit ∧
      (answerOf .blockWrite .busTimeout []).outcome = .busTimeout ∧
      (answerOf .blockWrite .aborted []).outcome = .aborted) := by decide +kernel

/-! ### A completion sent before the event that would withdraw its job (02 R45) -/

theorem caughtUp_catchUp {i : SlotId} {s : State} (h : s.inReset = false) : s.caughtUp i (catchUp i s) :=
  (caughtUp_iff h).2 rfl

/-- A transfer whose COMMIT was rejected, and a walk whose last allowance was denied, neither taken yet; in the first a frame
without PG is on its way too. -/
def rejected : State := transferring 64 (answerOf .commit .rejected [0xA5])
def denied : State := unlocking 1 4 2 (answerOf .unlock .denied [])
def rejectedFrame : State := rejected.updSlot 0 fun c =>
  { c with pgLostRun := 4, inbox := { c.inbox with frames := [{ time := 10, sample := sample 0 2000 0 }] } }

theorem witness_ParkAndDisablePowerDown_caughtUp :
    (rejected.takes ∧ rejected.caughtUp 0 (catchUp 0 rejected)) ∧
    ((rejected.slot 0).state = .configuring ∧ ((catchUp 0 rejected).slot 0).state = .faulted) ∧
    (((transferring 0 (answerOf .blockWrite .done [])).slot 0).state = .configuring ∧
      ((catchUp 0 (transferring 0 (answerOf .blockWrite .done []))).slot 0).state = .configuring) :=
  ⟨⟨takes_of_link rfl rfl, caughtUp_catchUp rfl⟩, by decide +kernel⟩

theorem witness_ContactChangeDebouncedOrRemoves_caughtUp :
    denied.caughtUp 0 (catchUp 0 denied) ∧
    (false ≠ (denied.slot 0).lateRaw ∧ (denied.slot 0).state = .unlocking ∧
      ((catchUp 0 denied).slot 0).state = .barred ∧ ((catchUp 0 rejected).slot 0).state = .faulted) :=
  ⟨caughtUp_catchUp rfl, by decide +kernel⟩

theorem witness_DebounceExpiryActsByState_caughtUp :
    let s := denied.updSlot 0 fun c => { c with earlyRaw := false, debounceEarly := some 50 }
    s.caughtUp 0 (catchUp 0 s) ∧
    ((s.slot 0).debounceEarly.isSome = true ∧ (s.slot 0).earlyRaw = false ∧ (s.slot 0).state = .unlocking ∧
      ((catchUp 0 s).slot 0).state = .barred) :=
  ⟨caughtUp_catchUp rfl, by decide +kernel⟩

theorem witness_SlotFrameRunsChecks_caughtUp :
    rejectedFrame.caughtUp 0 (catchUp 0 rejectedFrame) ∧
    ((rejectedFrame.slot 0).inbox.frames = [{ time := 10, sample := sample 0 2000 0 }] ∧
      (rejectedFrame.slot 0).state = .configuring ∧ (rejectedFrame.slot 0).threshold = some 150 ∧
      rejectedFrame.monitor.filter ≤ (rejectedFrame.slot 0).pgLostRun + 1 ∧
      ((catchUp 0 rejectedFrame).slot 0).state = .faulted) :=
  ⟨caughtUp_catchUp rfl, by decide +kernel⟩

/-- 02 section 2.8: the completion of the block at 32 had been sent when the fault came, so 48 words were written. -/
theorem test_completion_before_fault :
    let s := (transferring 32 { answerOf .blockWrite .done [] with words := 16 }).updSlot 0 fun c =>
      { c with pgLostRun := 4, inbox := { c.inbox with frames := [{ time := 10, sample := sample 0 2000 0 }] } }
    let t := after (.slotFrameTaken 0) s
    (t.slot 0).state = .cooldown ∧ (t.slot 0).reason = .pgLost ∧ (t.slot 0).wordsWritten = 48 ∧
      (t.slot 0).residual = 16 ∧ t.engine.jobs.length = 1 ∧ t.engine.current.all (fun cur => cur.abort) = true := by
  decide +kernel

/-- 04 R76, 02 R45: a DENIED already sent is charged before the removal, and its notice is begun at once (10 R191). -/
theorem test_denial_before_removal :
    let t := after (.contactRawChange 0 .late false) (unlocking 2 1 1 (answerOf .unlock .denied []))
    (t.slot 0).state = .removing ∧ (t.slot 0).allowance = 1 ∧ (t.slot 0).transitions = 0 ∧
      t.link.tx = some (.notice (frameBytes 0xE1 0 [0, 0x13, 1, 1, 0])) ∧ t.link.notices = [] := by decide +kernel

/-! ### The obligations' hypotheses: the cycle -/

theorem witness_AdoptionReportEntersRunning :
    let s (st : SlotState) : State := with0 { seated st with inbox := { (seated st).inbox with adoptionReports := 1 } }
    ((s .joining).slot 0).inbox.adoptionReports = 0 + 1 ∧ ((s .joining).slot 0).state = .joining ∧
      ((s .parked).slot 0).inbox.adoptionReports = 0 + 1 ∧ ((s .parked).slot 0).state ≠ .joining := by decide +kernel

/-- A RUNNING slot with an overrun count and an outcome on its way. -/
def judging (st : SlotState) (overruns : Nat) (o : WindowOutcome) : State :=
  with0 { seated st with overruns := overruns, inbox := { (seated st).inbox with outcomes := [o] } }

theorem witness_WindowOutcomesCounted :
    ((judging .running 2 .clean).slot 0).inbox.outcomes = [.clean] ∧
    ((judging .running 1 .overrun).slot 0).overruns < 2 ∧
    (((judging .running 2 .overrun).slot 0).state = .running ∧ 2 ≤ ((judging .running 2 .overrun).slot 0).overruns) ∧
    ((judging .parked 2 .overrun).slot 0).state ≠ .running ∧ busy.sequencer.run.isSome = true := by decide +kernel

theorem witness_MasterMarksStartCycles :
    let s := withSequencer { Sequencer.reset with state := .running, next := some 0, markLow := true }
    s.sequencer.state = .running ∧ s.sequencer.next.isSome = true ∧ s.sequencer.markLow = true ∧
      State.reset.sequencer.state ≠ .running ∧ State.reset.sequencer.next = none ∧
      State.reset.sequencer.markLow = false := by decide +kernel

theorem witness_FollowerJudgesMarks :
    let q := locked.sequencer
    let follows (q : Sequencer) : Prop := q.state = .seeking ∨ q.state = .locked ∨ q.state = .suspended
    (follows q ∧ q.longPulse = false) ∧ ¬ follows State.reset.sequencer ∧
    (follows { q with longPulse := true } ∧ { q with longPulse := true }.longPulse = true) ∧
    (follows { q with state := .seeking } ∧ { q with state := .seeking }.state ≠ .locked) ∧
    (follows { q with state := .suspended } ∧ { q with state := .suspended }.state ≠ .locked) ∧
    -- widths 4, 5, 39, 40, 60; ends 24,899, 24,900, 25,100 ticks after the cycle start
    (4 < 5 ∧ 5 ≤ 5 ∧ 39 < 40 ∧ 40 ≤ 40 ∧ 60 ≤ 60) ∧ q.state = .locked ∧ 24899 + q.tolerance < q.length ∧
    (q.length ≤ 24900 + q.tolerance ∧ 24900 ≤ q.length + q.tolerance) ∧
    (q.length ≤ 25100 + q.tolerance ∧ 25100 ≤ q.length + q.tolerance) := by decide +kernel

/-- The window of slot 0 in the active plan, and a machine about to start it. -/
def windowZero : ActiveWindow :=
  { slot := 0, rank := 20, start := 50, window := descriptorOf (cardRecord 0) 2 66 1, muted := false }

def starting (st : SlotState) (w : ActiveWindow) : State :=
  { within st with sequencer := { Sequencer.reset with state := .running, active := [w], next := some 0 } }

theorem witness_WindowRunsAccesses :
    let s := starting .running windowZero
    (s.sequencer.next = some 0 ∧ s.sequencer.run = none ∧ s.sequencer.active[0]? = some windowZero) ∧
    (windowZero.muted = false ∧ (s.slot windowZero.slot).state = .running ∧ s.sequencer.state = .running) ∧
    ¬ { windowZero with muted := true }.muted = false ∧
    ¬ ((starting .parked windowZero).slot windowZero.slot).state = .running := by decide +kernel

/-- A run of that window in a part, with a stretch taken. -/
def runAt (part : AccessPart) (stretch : Nat) (window : Descriptor) : WindowRun :=
  { WindowRun.begin windowZero with window := window, part := part, stretch := stretch, strobeTicks := 80 }

theorem witness_WindowRunsAccesses_parts :
    let d := windowZero.window
    (runAt .setup 0 d).part = .setup ∧ (runAt .hold 0 d).part = .hold ∧ (runAt .tail 0 d).part = .tail ∧
    ((runAt .strobe 34 d).part = .strobe ∧ 0 < d.stretch ∧ (runAt .strobe 34 d).stretch < d.stretch ∧
      d.stretch ≤ (runAt .strobe 35 d).stretch) ∧
    ((runAt .strobe 0 { d with stretch := 0 }).part = .strobe ∧
      (runAt .strobe 0 { d with stretch := 0 }).window.stretch = 0) := by decide +kernel

theorem witness_WindowEndsOnTime :
    let s := starting .running windowZero
    let commands : List Instr := [.accessPartEnd, .strobeTickEnd false, .strobeTickEnd true, .accessPartEnd]
    (s.inReset = false ∧ s.sequencer.next = some 0 ∧ s.sequencer.run = none ∧ s.sequencer.active[0]? = some windowZero ∧
      windowZero.muted = false ∧ (s.slot windowZero.slot).state = .running ∧ s.sequencer.state.trusted = true ∧
      windowZero.window = descriptorOf (cardRecord 0) 2 66 1) ∧
    (∀ c ∈ commands, c = .accessPartEnd ∨ c = .strobeTickEnd true ∨ c = .strobeTickEnd false) ∧
    (match execAll (.windowStart :: commands) s with
     | .next t => t.sequencer.run.map fun r => (r.index, r.stretch, r.elapsed)
     | .fault _ | .refused _ => none) = some (1, 1, 84) := by decide +kernel

theorem witness_VerdictFollowsTable :
    let matching (kind : EntryKind) (n : Fin 16) (code : Long) : Prop := policyTable.entries[n].kind = kind ∧
      ∀ b < 32, policyTable.entries[n].mask.getLsbD b = true → code.getLsbD b = policyTable.entries[n].pattern.getLsbD b
    (matching .reject 7 0x3A102203 ∧ ∀ m, m < 7 → ¬ matching .reject m 0x3A102203) ∧
    ((∀ n, ¬ matching .reject n 0x3A102207) ∧ matching .accept 1 0x3A102207 ∧ ∀ m, m < 1 → ¬ matching .accept m 0x3A102207) ∧
    ∀ n, ¬ matching .reject n 0x77001001 ∧ ¬ matching .accept n 0x77001001 := by
  decide +kernel

theorem witness_WindowFollowsDeclarations :
    windowOf (cardRecord 0) = some (windowZero.window, clampFlagsOf (cardRecord 0) windowZero.window) ∧
      ((cardRecord 0).getD 11 0).toNat / 16 < 3 ∧ ((cardRecord 0).getD 11 0).toNat % 16 < 3 ∧
      (windowOf ((cardRecord 0).take 22 ++ u16 11360 ++ (cardRecord 0).drop 24)).isSome = true := by decide +kernel

/-! ### The obligations' hypotheses: the recorder -/

/-- Settings at the limits of their ranges, and one past each. -/
theorem witness_RecorderCommandsMoveStates_settings :
    let inRange (mode pre overlap decimation gateTail : Nat) : Prop := mode ≤ 5 ∧ pre < 96 * 2 ^ mode ∧
      overlap + pre < 96 * 2 ^ mode ∧ 1 ≤ decimation ∧ decimation ≤ 100 ∧ gateTail ≤ 1000
    inRange 5 3071 0 100 1000 ∧ inRange 0 0 95 1 0 ∧ ¬ inRange 6 0 0 1 0 ∧ ¬ inRange 0 96 0 1 0 ∧ ¬ inRange 0 0 96 1 0 ∧
      ¬ inRange 0 0 0 0 0 ∧ ¬ inRange 0 0 0 101 0 ∧ ¬ inRange 0 0 0 1 1001 := by decide +kernel

theorem witness_RecorderCommandsMoveStates : (∀ r, (withRecorder r).takes) ∧ (
    let held : Recorder := { Recorder.reset with lastWrite := true }
    let full : Recorder := { busy.recorder with state := .full }
    Recorder.reset.state = .stopped ∧ busy.recorder.state ≠ .stopped ∧
      (held.state = .stopped ∧ held.w = held.r ∧ held.lastWrite = true) ∧
      ¬ (Recorder.reset.w = Recorder.reset.r ∧ Recorder.reset.lastWrite = true) ∧
      Recorder.reset.events = [] ∧ busy.recorder.events.length = 1 ∧ full.state = .full ∧ busy.recorder.state ≠ .full) :=
  ⟨fun _ => takes_of_link rfl rfl, by
  decide +kernel⟩

theorem witness_RecorderReports : (busy.takes ∧ State.reset.takes) ∧ (
    let allowed (offset count : Nat) : Prop := 1 ≤ count ∧ count ≤ 8 ∧ offset + count ≤ 96 * 2 ^ 2
    busy.recorder.events.length = 1 ∧ State.reset.recorder.events = [] ∧ busy.recorder.settings.mode = 2 ∧
      allowed 376 8 ∧ ¬ allowed 377 8 ∧ ¬ allowed 0 0 ∧ ¬ allowed 0 9) :=
  ⟨⟨witness_Takes.2.1, reset_takes⟩, by decide +kernel⟩

theorem witness_RecorderTakesTriggersAndGate :
    let rail : Trigger := { source := .railDip, slot := none }
    let report (entering : Bool) : GateReport := { slot := 3, entering := entering }
    let r : Recorder := { Recorder.reset with
      triggers := [rail], gateReports := [{ slot := 1, entering := true }, report true], gateTail := some 200 }
    State.reset.takes ∧ State.reset.recorder.state = .stopped ∧ busy.takes ∧ busy.recorder.state ≠ .stopped ∧
      rail ∈ r.triggers ∧ rail ∉ State.reset.recorder.triggers ∧
      (r.gateReports = [{ slot := 1, entering := true }] ++ report true :: [] ∧
        (∀ h ∈ [({ slot := 1, entering := true } : GateReport)], h.slot ≠ 3) ∧ (report true).slot = 3) ∧
      (∀ g ∈ State.reset.recorder.gateReports, g.slot ≠ 3) ∧ r.gateTail.isSome = true := by
  unfold State.takes
  decide +kernel

/-- Recorders with a frame on its way, in each state of RECORDER_FRAME_TAKEN's clauses. -/
theorem witness_RecorderStoresFrames_states :
    (∀ r ∈ [recording .stopped 0, recording .fillingPre 94, recording .fillingPre 95, recording .ready 383,
        { recording .ready 3 with skip := 1 }, recording (capturing 288 true { source := .host, slot := none }) 96,
        { busy.recorder with state := .full, events := busy.recorder.events ++ List.replicate 15 (busy.recorder.recordOf
            { source := { source := .host, slot := none }, remaining := 0, awaiting := false, pre := 0, triggerIndex := 0,
              time := 0, cycle := 0 }), w := 0, frames := (recording .full 0).frames }],
      r.sound ∧ r.frames = [{ time := 3000, sample := sample 1 2 3 }]) ∧
    (recording .fillingPre 94).written + 1 < (recording .fillingPre 94).settings.pre ∧
    (recording .fillingPre 95).settings.pre ≤ (recording .fillingPre 95).written + 1 ∧
    { recording .ready 3 with skip := 1 }.skip ≠ 0 ∧ (recording .ready 383).skip = 0 := by
  unfold Recorder.sound
  decide +kernel

/-- A capture whose last frame is on its way: ungated or gated, gate open or closed, ring at its last place or not, an
overlap trigger pending or not. -/
def ending (source : Trigger) (gateOpen : Bool) (last : Bool) (overlap : Option Trigger) : Recorder :=
  let record := busy.recorder.recordOf { source := source, remaining := 0, awaiting := false, pre := 0, triggerIndex := 0,
                                         time := 0, cycle := 0 }
  { recording (capturing 1 false source) 53 with
    gateOpen := gateOpen, gateTail := if gateOpen then some 200 else none, overlap := overlap
    w := if last then 15 else 1, lastWrite := true, events := List.replicate (if last then 15 else 1) record }

theorem witness_RecorderStoresFrames_freeze :
    let host : Trigger := { source := .host, slot := none }
    let slot5 : Trigger := { source := .slotOvercurrent, slot := some 5 }
    (∀ r ∈ [ending host false true none, ending slot5 true false (some host), ending slot5 true false none,
        ending slot5 false false (some host), ending slot5 false false none, ending slot5 false false (some slot5)],
      r.sound ∧ r.frames = [{ time := 3000, sample := sample 1 2 3 }] ∧ r.state.capture?.map Capture.remaining = some 1) ∧
    ((ending host false true none).w + 1) % 16 = (ending host false true none).r ∧
    ((ending slot5 true false none).w + 1) % 16 ≠ (ending slot5 true false none).r ∧
    (ending slot5 true false (some host)).overlap = some host ∧ (ending slot5 true false none).overlap = none ∧
    (ending slot5 false false none).gateOpen = false ∧ slot5.source ≠ .host ∧ slot5.source ≠ .external := by
  unfold Recorder.sound
  decide +kernel

/-- A capture at the end of its inhibit phase with a latched trigger. -/
theorem witness_RecorderStoresFrames_latch :
    let r : Recorder := { recording (capturing 33 false { source := .host, slot := none }) 21 with latches := [.external] }
    r.sound ∧ r.state.capture?.map (fun c => c.remaining - 1) = some r.settings.overlap ∧ r.latches ≠ [] := by
  unfold Recorder.sound
  decide +kernel

end Sys2Proof.Tests
end

section
/-!
PROOF. The admission filter's verdict and POLICY_DEFAULT (03 R54, R55, R59): what a search of the table finds, what the
verdict is in each of its cases, what the command answers, and from these O55 and O35.
-/
namespace Sys2Proof.Machine

/-! ### Matching entries -/

/-- Entry n has the kind and agrees with the code in every bit its mask holds 1 (03 R54): `Policy.lowest`'s test, bit by
bit, as `isMatch_iff` says. -/
def Policy.IsMatch (p : Policy) (code : Long) (kind : EntryKind) (n : Fin 16) : Prop :=
  p.entries[n].kind = kind ∧
    ∀ b < 32, p.entries[n].mask.getLsbD b = true → code.getLsbD b = p.entries[n].pattern.getLsbD b

/-- Entry n is the lowest-numbered match of its kind. -/
def Policy.IsLowestMatch (p : Policy) (code : Long) (kind : EntryKind) (n : Fin 16) : Prop :=
  p.IsMatch code kind n ∧ ∀ m, m < n → ¬ p.IsMatch code kind m

/-- Comparing under the mask is comparing the bits that the mask holds 1. -/
theorem PolicyEntry.agrees_iff (e : PolicyEntry) (code : Long) :
    e.agrees code = true ↔ ∀ b < 32, e.mask.getLsbD b = true → code.getLsbD b = e.pattern.getLsbD b := by
  simp only [PolicyEntry.agrees, decide_eq_true_eq]
  constructor
  · intro heq b _ hmask
    have hbit : (code &&& e.mask).getLsbD b = (e.pattern &&& e.mask).getLsbD b := by rw [heq]
    simpa [hmask] using hbit
  · intro hbits
    apply BitVec.eq_of_getLsbD_eq
    intro b hb
    cases hmask : e.mask.getLsbD b with
    | false => simp [hmask]
    | true => simp [hmask, hbits b hb hmask]

theorem Policy.isMatch_iff (p : Policy) (code : Long) (kind : EntryKind) (n : Fin 16) :
    (decide (p.entries[n].kind = kind) && p.entries[n].agrees code) = true ↔ p.IsMatch code kind n := by
  rw [Bool.and_eq_true, decide_eq_true_eq, PolicyEntry.agrees_iff, Policy.IsMatch]

/-! ### The search of the table -/

theorem Policy.lowest_eq_none_iff (p : Policy) (code : Long) (kind : EntryKind) :
    p.lowest kind code = none ↔ ∀ n, ¬ p.IsMatch code kind n := by
  simp only [Policy.lowest, List.find?_eq_none, Policy.isMatch_iff, List.mem_finRange, forall_const]

/-- The search runs through the entries in number order, so what stands before the entry found has a lower number. -/
theorem Policy.lowest_eq_some {p : Policy} {code : Long} {kind : EntryKind} {n : Fin 16}
    (h : p.IsLowestMatch code kind n) : p.lowest kind code = some n := by
  obtain ⟨hmatch, hbefore⟩ := h
  rw [Policy.lowest, List.find?_eq_some_iff_getElem]
  refine ⟨(p.isMatch_iff code kind n).2 hmatch, n, by simp, by simp, fun j hj => ?_⟩
  have hno : ¬ p.IsMatch code kind ⟨j, Nat.lt_trans hj n.isLt⟩ := hbefore _ hj
  rw [Bool.not_eq_true', Bool.eq_false_iff, ne_eq, Policy.isMatch_iff, List.getElem_finRange]
  exact hno

/-! ### The verdict, case by case (03 R55) -/

theorem Policy.verdict_of_reject {p : Policy} {code : Long} {n : Fin 16} (h : p.lowest .reject code = some n) :
    p.verdict code = .refuse .rejected (some n) := by
  simp [Policy.verdict, h]

theorem Policy.verdict_of_accept {p : Policy} {code : Long} {n : Fin 16} (hr : p.lowest .reject code = none)
    (ha : p.lowest .accept code = some n) :
    p.verdict code = .accept p.entries[n].action (some n) p.entries[n].rank p.entries[n].set := by
  simp [Policy.verdict, hr, ha]

theorem Policy.verdict_default_refuse {p : Policy} {code : Long} (hr : p.lowest .reject code = none)
    (ha : p.lowest .accept code = none) (hd : p.default = .refuse) : p.verdict code = .refuse .noPolicy none := by
  simp [Policy.verdict, hr, ha, hd]

theorem Policy.verdict_default_consent {p : Policy} {code : Long} (hr : p.lowest .reject code = none)
    (ha : p.lowest .accept code = none) (hd : p.default = .consent) :
    p.verdict code = .accept .consent none 255 none := by
  simp [Policy.verdict, hr, ha, hd]

/-- Settles O55: the three clauses are the three outcomes of the two searches, REJECT's first. -/
theorem verdictFollowsTable : Obligations.VerdictFollowsTable := by
  intro p code
  refine ⟨fun n hlow => ?reject, fun hnoReject n hlow => ?accept, fun hnone => ?default⟩
  case reject => exact Policy.verdict_of_reject (Policy.lowest_eq_some hlow)
  case accept =>
    exact Policy.verdict_of_accept ((p.lowest_eq_none_iff code .reject).2 hnoReject) (Policy.lowest_eq_some hlow)
  case default =>
    have hr : p.lowest .reject code = none := (p.lowest_eq_none_iff code .reject).2 fun n => (hnone n).1
    have ha : p.lowest .accept code = none := (p.lowest_eq_none_iff code .accept).2 fun n => (hnone n).2
    cases hd : p.default with
    | refuse => exact Policy.verdict_default_refuse hr ha hd
    | consent => exact Policy.verdict_default_consent hr ha hd

/-! ### POLICY_DEFAULT (03 R59) -/

/-- A taken command whose effect is t and whose answer is `status` with `data` leaves t with that reply queued. -/
theorem command_replied {kind tag : Byte} {act : State → State × Answer} {s t : State} {status : Status}
    {data : List Byte} (h : s.takes) (hact : act s = (t, { status := status, data := data })) :
    whenLive (takeCommand kind tag act) s = .next (t.replied kind tag status data) := by
  rw [command_takes h, hact, transmit_queueReply]

theorem defaultActionOf_code {b : Byte} {d : DefaultAction} (h : b.toNat = d.code) : defaultActionOf b = some d := by
  cases d with
  | refuse =>
    have hb : b = 0 := BitVec.eq_of_toNat_eq h
    simp [defaultActionOf, hb]
  | consent =>
    have hb : b = 1 := BitVec.eq_of_toNat_eq h
    simp [defaultActionOf, hb]

theorem defaultActionOf_unknown {b : Byte} (h : 1 < b.toNat) : defaultActionOf b = none := by
  have h0 : b ≠ 0 := by rintro rfl; simp at h
  have h1 : b ≠ 1 := by rintro rfl; simp at h
  rw [defaultActionOf, if_neg h0, if_neg h1]

theorem answerPolicyDefault_frozen {s : State} (b : Byte) (h : s.policy.frozen = true) :
    answerPolicyDefault b s = refuseWith .frozen s := by
  simp [answerPolicyDefault, h]

theorem answerPolicyDefault_unknown {s : State} {b : Byte} (h : s.policy.frozen = false) (hb : 1 < b.toNat) :
    answerPolicyDefault b s = refuseWith .badArgument s := by
  simp [answerPolicyDefault, h, defaultActionOf_unknown hb]

theorem answerPolicyDefault_known {s : State} {b : Byte} {d : DefaultAction} (h : s.policy.frozen = false)
    (hb : b.toNat = d.code) :
    answerPolicyDefault b s = ({ s with policy := { s.policy with default := d } }, okAnswer []) := by
  simp [answerPolicyDefault, h, defaultActionOf_code hb]

theorem exec_policyDefault (tag b : Byte) (s : State) :
    exec (.policyDefault tag b) s = whenLive (takeCommand 0x22 tag (answerPolicyDefault b)) s := rfl

/-- Settles O35: one clause for each answer of the command, and the verdict of the default CONSENT. -/
theorem policyDefaultReplaced : Obligations.PolicyDefaultReplaced := by
  intro s tag b htakes
  rw [exec_policyDefault]
  refine ⟨fun hfrozen => ?frozen, fun hopen hb => ?unknown, fun d hopen hb => ?known, fun p code hd hr ha => ?verdict⟩
  case frozen => exact command_replied htakes (answerPolicyDefault_frozen b hfrozen)
  case unknown => exact command_replied htakes (answerPolicyDefault_unknown hopen hb)
  case known => exact command_replied htakes (answerPolicyDefault_known hopen hb)
  case verdict => exact Policy.verdict_default_consent hr ha hd

end Sys2Proof.Machine
end

section
/-!
PROOF. The host commands as one family: what a taken command's effect can be, whichever way it came in, by its own row or
by the bytes of its frame.
-/
namespace Sys2Proof.Machine

/-- The effects of the host commands. Those that leave the state as it is stand together, and so do those that write the
slot times, the policy or the keys alone. -/
inductive HostAct : (State → State × Answer) → Prop where
  | reads {act : State → State × Answer} : (∀ s, (act s).1 = s) → HostAct act
  | settings {act : State → State × Answer} :
      (∀ s, ∃ times policy keys, (act s).1 = { s with times := times, policy := policy, keys := keys }) → HostAct act
  | warmRestart : HostAct answerWarmRestart
  | setPower (v : PowerFields) : HostAct (answerSetPower v)
  | setCycle (mode : Byte) (length : Long) (tolerance : Word) : HostAct (answerSetCycle mode length tolerance)
  | slotConsent (slot decision : Byte) : HostAct (answerSlotConsent slot decision)
  | slotPark (slot : Byte) : HostAct (answerSlotPark slot)
  | slotResume (slot : Byte) : HostAct (answerSlotResume slot)
  | slotRestart (slot : Byte) : HostAct (answerSlotRestart slot)
  | slotDisable (slot : Byte) : HostAct (answerSlotDisable slot)
  | slotEnable (slot : Byte) : HostAct (answerSlotEnable slot)
  | slotClearBar (slot : Byte) : HostAct (answerSlotClearBar slot)
  | paramBegin (set : Byte) (length : Word) : HostAct (answerParamBegin set length)
  | paramLoad (set : Byte) (offset : Word) (count : Byte) (words : List Word) :
      HostAct (answerParamLoad set offset count words)
  | paramFree (set : Byte) : HostAct (answerParamFree set)
  | recSet (v : RecSetFields) : HostAct (answerRecSet v)
  | recArm : HostAct answerRecArm
  | recStop : HostAct answerRecStop
  | recTrigger : HostAct answerRecTrigger
  | recRelease : HostAct answerRecRelease

/-! ### The commands that only report -/

theorem hostAct_refuse (status : Status) : HostAct (refuseWith status) := .reads fun _ => rfl

theorem answerSlotStatus_reads (slot : Byte) (s : State) : (answerSlotStatus slot s).1 = s := by
  unfold answerSlotStatus onSlot; split <;> rfl

theorem answerSlotIdentity_reads (slot : Byte) (s : State) : (answerSlotIdentity slot s).1 = s := by
  unfold answerSlotIdentity onSlot
  split
  · dsimp only; split <;> rfl
  · rfl

theorem answerPolicyRead_reads (entry : Byte) (s : State) : (answerPolicyRead entry s).1 = s := by
  unfold answerPolicyRead; split <;> rfl

theorem answerParamStatus_reads (set : Byte) (s : State) : (answerParamStatus set s).1 = s := by
  unfold answerParamStatus onSet; split <;> rfl

theorem answerPlanRead_reads (position : Byte) (s : State) : (answerPlanRead position s).1 = s := by
  unfold answerPlanRead
  split
  · rfl
  · split <;> rfl

theorem answerRecEvent_reads (s : State) : (answerRecEvent s).1 = s := by
  unfold answerRecEvent; split <;> rfl

theorem answerRecData_reads (offset : Word) (count : Byte) (s : State) : (answerRecData offset count s).1 = s := by
  unfold answerRecData
  split
  · rfl
  · split <;> rfl

/-! ### The commands that write settings, policy or keys alone -/

theorem answerPolicyWrite_settings (v : PolicyFields) (s : State) : ∃ times policy keys,
    (answerPolicyWrite v s).1 = { s with times := times, policy := policy, keys := keys } := by
  unfold answerPolicyWrite
  split
  · exact ⟨s.times, s.policy, s.keys, rfl⟩
  · split <;> exact ⟨_, _, _, rfl⟩

theorem answerPolicyDefault_settings (b : Byte) (s : State) : ∃ times policy keys,
    (answerPolicyDefault b s).1 = { s with times := times, policy := policy, keys := keys } := by
  unfold answerPolicyDefault
  split
  · exact ⟨s.times, s.policy, s.keys, rfl⟩
  · split <;> exact ⟨_, _, _, rfl⟩

theorem answerKeyLoad_settings (b : Byte) (key : List Byte) (s : State) : ∃ times policy keys,
    (answerKeyLoad b key s).1 = { s with times := times, policy := policy, keys := keys } := by
  unfold answerKeyLoad
  split
  · exact ⟨s.times, s.policy, s.keys, rfl⟩
  · split
    · exact ⟨s.times, s.policy, s.keys, rfl⟩
    · split <;> exact ⟨_, _, _, rfl⟩

theorem answerKeyErase_settings (b : Byte) (s : State) : ∃ times policy keys,
    (answerKeyErase b s).1 = { s with times := times, policy := policy, keys := keys } := by
  unfold answerKeyErase
  split
  · exact ⟨s.times, s.policy, s.keys, rfl⟩
  · split <;> exact ⟨_, _, _, rfl⟩

/-! ### The two ways in -/

theorem hostAct_sized (n : Nat) (p : List Byte) {act : State → State × Answer} (h : HostAct act) :
    HostAct (sized n p act) := by
  unfold sized
  split
  · exact h
  · exact hostAct_refuse _

theorem hostAct_sizedLoad (p : List Byte) : HostAct (sizedLoad p) := by
  unfold sizedLoad
  split
  · exact .paramLoad _ _ _ _
  · exact hostAct_refuse _

theorem hostAct_partStatus : HostAct answerPartStatus := .reads fun _ => rfl
theorem hostAct_cycleStatus : HostAct answerCycleStatus := .reads fun _ => rfl
theorem hostAct_keyStatus : HostAct answerKeyStatus := .reads fun _ => rfl
theorem hostAct_recStatus : HostAct answerRecStatus := .reads fun _ => rfl
theorem hostAct_setSlotTimes (v : SlotTimesFields) : HostAct (answerSetSlotTimes v) :=
  .settings fun s => ⟨_, s.policy, s.keys, rfl⟩
theorem hostAct_policyFreeze : HostAct answerPolicyFreeze := .settings fun s => ⟨s.times, _, s.keys, rfl⟩

/-- What a frame asks for is the effect of a host command, or a refusal, which reports (10 R188). -/
theorem hostAct_frameCommand (kind : Byte) (p : List Byte) : HostAct (frameCommand kind p) := by
  unfold frameCommand
  split
  · exact hostAct_sized _ _ hostAct_partStatus
  · exact hostAct_sized _ _ .warmRestart
  · exact hostAct_sized _ _ (hostAct_setSlotTimes _)
  · exact hostAct_sized _ _ (.setPower _)
  · exact hostAct_sized _ _ (.setCycle _ _ _)
  · exact hostAct_sized _ _ (.reads (answerSlotStatus_reads _))
  · exact hostAct_sized _ _ (.reads (answerSlotIdentity_reads _))
  · exact hostAct_sized _ _ (.slotConsent _ _)
  · exact hostAct_sized _ _ (.slotPark _)
  · exact hostAct_sized _ _ (.slotResume _)
  · exact hostAct_sized _ _ (.slotRestart _)
  · exact hostAct_sized _ _ (.slotDisable _)
  · exact hostAct_sized _ _ (.slotEnable _)
  · exact hostAct_sized _ _ (.slotClearBar _)
  · exact hostAct_sized _ _ (.settings (answerPolicyWrite_settings _))
  · exact hostAct_sized _ _ (.reads (answerPolicyRead_reads _))
  · exact hostAct_sized _ _ (.settings (answerPolicyDefault_settings _))
  · exact hostAct_sized _ _ hostAct_policyFreeze
  · exact hostAct_sized _ _ (.settings (answerKeyLoad_settings _ _))
  · exact hostAct_sized _ _ (.settings (answerKeyErase_settings _))
  · exact hostAct_sized _ _ hostAct_keyStatus
  · exact hostAct_sized _ _ (.paramBegin _ _)
  · exact hostAct_sizedLoad _
  · exact hostAct_sized _ _ (.reads (answerParamStatus_reads _))
  · exact hostAct_sized _ _ (.paramFree _)
  · exact hostAct_sized _ _ (.reads (answerPlanRead_reads _))
  · exact hostAct_sized _ _ hostAct_cycleStatus
  · exact hostAct_sized _ _ (.recSet _)
  · exact hostAct_sized _ _ .recArm
  · exact hostAct_sized _ _ .recStop
  · exact hostAct_sized _ _ .recTrigger
  · exact hostAct_sized _ _ (.reads answerRecEvent_reads)
  · exact hostAct_sized _ _ (.reads (answerRecData_reads _ _))
  · exact hostAct_sized _ _ .recRelease
  · exact hostAct_sized _ _ hostAct_recStatus
  · exact hostAct_refuse _

/-- A command given by its row is a frame of its kind taken, with its effect. -/
theorem exec_hostAct {c : Instr} (h : (hostFrame c).isSome = true) : ∃ kind tag act, HostAct act ∧
    exec c = whenLive (takeCommand kind tag act) := by
  cases c with
  | partStatus tag => exact ⟨_, _, _, hostAct_partStatus, rfl⟩
  | warmRestart tag => exact ⟨_, _, _, .warmRestart, rfl⟩
  | setSlotTimes tag v => exact ⟨_, _, _, hostAct_setSlotTimes v, rfl⟩
  | setPower tag v => exact ⟨_, _, _, .setPower v, rfl⟩
  | setCycle tag mode length tolerance => exact ⟨_, _, _, .setCycle _ _ _, rfl⟩
  | slotStatus tag slot => exact ⟨_, _, _, .reads (answerSlotStatus_reads slot), rfl⟩
  | slotIdentity tag slot => exact ⟨_, _, _, .reads (answerSlotIdentity_reads slot), rfl⟩
  | slotConsent tag slot decision => exact ⟨_, _, _, .slotConsent _ _, rfl⟩
  | slotPark tag slot => exact ⟨_, _, _, .slotPark _, rfl⟩
  | slotResume tag slot => exact ⟨_, _, _, .slotResume _, rfl⟩
  | slotRestart tag slot => exact ⟨_, _, _, .slotRestart _, rfl⟩
  | slotDisable tag slot => exact ⟨_, _, _, .slotDisable _, rfl⟩
  | slotEnable tag slot => exact ⟨_, _, _, .slotEnable _, rfl⟩
  | slotClearBar tag slot => exact ⟨_, _, _, .slotClearBar _, rfl⟩
  | policyWrite tag v => exact ⟨_, _, _, .settings (answerPolicyWrite_settings v), rfl⟩
  | policyRead tag entry => exact ⟨_, _, _, .reads (answerPolicyRead_reads entry), rfl⟩
  | policyDefault tag b => exact ⟨_, _, _, .settings (answerPolicyDefault_settings b), rfl⟩
  | policyFreeze tag => exact ⟨_, _, _, hostAct_policyFreeze, rfl⟩
  | keyLoad tag b key => exact ⟨_, _, _, .settings (answerKeyLoad_settings b key), rfl⟩
  | keyErase tag b => exact ⟨_, _, _, .settings (answerKeyErase_settings b), rfl⟩
  | keyStatus tag => exact ⟨_, _, _, hostAct_keyStatus, rfl⟩
  | paramBegin tag n length => exact ⟨_, _, _, .paramBegin _ _, rfl⟩
  | paramLoad tag n offset count words => exact ⟨_, _, _, .paramLoad _ _ _ _, rfl⟩
  | paramStatus tag n => exact ⟨_, _, _, .reads (answerParamStatus_reads n), rfl⟩
  | paramFree tag n => exact ⟨_, _, _, .paramFree _, rfl⟩
  | planRead tag position => exact ⟨_, _, _, .reads (answerPlanRead_reads position), rfl⟩
  | cycleStatus tag => exact ⟨_, _, _, hostAct_cycleStatus, rfl⟩
  | recSet tag v => exact ⟨_, _, _, .recSet v, rfl⟩
  | recArm tag => exact ⟨_, _, _, .recArm, rfl⟩
  | recStop tag => exact ⟨_, _, _, .recStop, rfl⟩
  | recTrigger tag => exact ⟨_, _, _, .recTrigger, rfl⟩
  | recEvent tag => exact ⟨_, _, _, .reads answerRecEvent_reads, rfl⟩
  | recStatus tag => exact ⟨_, _, _, hostAct_recStatus, rfl⟩
  | recData tag offset count => exact ⟨_, _, _, .reads (answerRecData_reads offset count), rfl⟩
  | recRelease tag => exact ⟨_, _, _, .recRelease, rfl⟩
  | _ => cases h

end Sys2Proof.Machine
end

section
/-!
PROOF. Everything a step can be: an event that acts outside RESET, one of the resets, or a change of a contact's pin. An
invariant of every step is proved for these four.
-/
namespace Sys2Proof.Machine

/-- What the commands but the resets and the contact pins do when the part is not held in reset. -/
inductive Event : (State → State) → Prop where
  | host (kind tag : Byte) {act : State → State × Answer} : HostAct act → Event (takeCommand kind tag act)
  | restartSent : Event restartSent
  | endFrame (b : Byte) : Event (endFrame b)
  | takeByte (b : Byte) : Event (takeByte b)
  | abortGap : Event abortGap
  | endSending : Event endSending
  | transmit : Event transmit
  | expireDebounce (i : SlotId) (contact : Contact) : Event (expireDebounce i contact)
  | expireCooldown (i : SlotId) : Event (expireCooldown i)
  | expireSettle (i : SlotId) : Event (expireSettle i)
  | completeJob (how : BusEnd) : Event (completeJob how)
  | timeOutByte (late : LateByte) : Event (timeOutByte late)
  | takeNextCompletion (i : SlotId) : Event (takeNextCompletion i)
  | expireConsent (i : SlotId) : Event (expireConsent i)
  | sampleFrame (f : MonitorSample) : Event (sampleFrame f)
  | takeNextFrame (i : SlotId) : Event (takeNextFrame i)
  | expireRamp (i : SlotId) : Event (expireRamp i)
  | expireResetHold (i : SlotId) : Event (expireResetHold i)
  | expirePoll (i : SlotId) : Event (expirePoll i)
  | expireReady (i : SlotId) : Event (expireReady i)
  | takeNextAnnouncement (i : SlotId) : Event (takeNextAnnouncement i)
  | beginMark : Event beginMark
  | endMark : Event endMark
  | endPulse (width sinceStart : Nat) : Event (endPulse width sinceStart)
  | longPulse : Event longPulse
  | loseMark : Event loseMark
  | takeAdoption (i : SlotId) : Event (takeAdoption i)
  | startWindow : Event startWindow
  | endPart : Event (updRun WindowRun.endPart)
  | strobeTick (rdyHigh : Bool) : Event (updRun (WindowRun.strobeTick rdyHigh))
  | reachGap : Event reachGap
  | takeNextOutcome (i : SlotId) : Event (takeNextOutcome i)
  | recorderFrame : Event recorderFrame
  | arriveTrigger (t : Trigger) : Event (arriveTrigger t)
  | traceIn : Event (presentTrigger { source := .external, slot := none })
  | endTracePulse : Event endTracePulse
  | arriveReport (i : SlotId) : Event (arriveReport i)
  | expireTail : Event expireTail

/-- A command that is no reset and no change of a contact's pin acts as an event, outside RESET alone. -/
theorem exec_event (c : Instr) : (∃ rateHigh, c = .coldReset rateHigh) ∨ c = .resetAsserted ∨
    (∃ i contact made, c = .contactRawChange i contact made) ∨ ∃ f, Event f ∧ exec c = whenLive f := by
  by_cases hhost : (hostFrame c).isSome = true
  · obtain ⟨kind, tag, act, hact, hexec⟩ := exec_hostAct hhost
    exact .inr (.inr (.inr ⟨_, .host kind tag hact, hexec⟩))
  cases c with
  | coldReset rateHigh => exact .inl ⟨rateHigh, rfl⟩
  | resetAsserted => exact .inr (.inl rfl)
  | contactRawChange i contact made => exact .inr (.inr (.inl ⟨i, contact, made, rfl⟩))
  | warmRestartPerform => exact .inr (.inr (.inr ⟨_, .restartSent, rfl⟩))
  | frameReceived b => exact .inr (.inr (.inr ⟨_, .endFrame _, rfl⟩))
  | gapAbort => exact .inr (.inr (.inr ⟨_, .abortGap, rfl⟩))
  | txFrameSent => exact .inr (.inr (.inr ⟨_, .endSending, rfl⟩))
  | txFrameBegin => exact .inr (.inr (.inr ⟨_, .transmit, rfl⟩))
  | debounceExpiry i contact => exact .inr (.inr (.inr ⟨_, .expireDebounce i contact, rfl⟩))
  | cooldownExpiry i => exact .inr (.inr (.inr ⟨_, .expireCooldown i, rfl⟩))
  | settleExpiry i => exact .inr (.inr (.inr ⟨_, .expireSettle i, rfl⟩))
  | jobComplete how => exact .inr (.inr (.inr ⟨_, .completeJob how, rfl⟩))
  | busTimeout late => exact .inr (.inr (.inr ⟨_, .timeOutByte late, rfl⟩))
  | jobCompletionTaken i => exact .inr (.inr (.inr ⟨_, .takeNextCompletion i, rfl⟩))
  | consentTimeout i => exact .inr (.inr (.inr ⟨_, .expireConsent i, rfl⟩))
  | monitorFrame f => exact .inr (.inr (.inr ⟨_, .sampleFrame f, rfl⟩))
  | slotFrameTaken i => exact .inr (.inr (.inr ⟨_, .takeNextFrame i, rfl⟩))
  | rampTimerExpiry i => exact .inr (.inr (.inr ⟨_, .expireRamp i, rfl⟩))
  | resetHoldExpiry i => exact .inr (.inr (.inr ⟨_, .expireResetHold i, rfl⟩))
  | pollIntervalExpiry i => exact .inr (.inr (.inr ⟨_, .expirePoll i, rfl⟩))
  | readyTimeout i => exact .inr (.inr (.inr ⟨_, .expireReady i, rfl⟩))
  | setReadyAnnouncement i => exact .inr (.inr (.inr ⟨_, .takeNextAnnouncement i, rfl⟩))
  | markBegin => exact .inr (.inr (.inr ⟨_, .beginMark, rfl⟩))
  | cycleStart => exact .inr (.inr (.inr ⟨_, .endMark, rfl⟩))
  | markPulseEnd width sinceStart => exact .inr (.inr (.inr ⟨_, .endPulse width sinceStart, rfl⟩))
  | markLongPulse => exact .inr (.inr (.inr ⟨_, .longPulse, rfl⟩))
  | lostTimeout => exact .inr (.inr (.inr ⟨_, .loseMark, rfl⟩))
  | adoptionReportTaken i => exact .inr (.inr (.inr ⟨_, .takeAdoption i, rfl⟩))
  | windowStart => exact .inr (.inr (.inr ⟨_, .startWindow, rfl⟩))
  | accessPartEnd => exact .inr (.inr (.inr ⟨_, .endPart, rfl⟩))
  | strobeTickEnd rdyHigh => exact .inr (.inr (.inr ⟨_, .strobeTick rdyHigh, rfl⟩))
  | windowGapStart => exact .inr (.inr (.inr ⟨_, .reachGap, rfl⟩))
  | windowOutcomeTaken i => exact .inr (.inr (.inr ⟨_, .takeNextOutcome i, rfl⟩))
  | recorderFrameTaken => exact .inr (.inr (.inr ⟨_, .recorderFrame, rfl⟩))
  | triggerTaken t => exact .inr (.inr (.inr ⟨_, .arriveTrigger t, rfl⟩))
  | traceInTrigger => exact .inr (.inr (.inr ⟨_, .traceIn, rfl⟩))
  | traceOutPulseEnd => exact .inr (.inr (.inr ⟨_, .endTracePulse, rfl⟩))
  | gateReportTaken i => exact .inr (.inr (.inr ⟨_, .arriveReport i, rfl⟩))
  | gateTailExpiry => exact .inr (.inr (.inr ⟨_, .expireTail, rfl⟩))
  | receivedByteTaken c => exact .inr (.inr (.inr ⟨_, .takeByte _, rfl⟩))
  | _ => exact absurd rfl hhost

/-- A property that does not speak of the queue of commands, and that the events, the two resets and the contact pins
keep, is kept by every step. -/
theorem step_keeps {P : State → Prop} (queue : ∀ s q, P s → P (s.withPending q))
    (event : ∀ f, Event f → ∀ s, s.inReset = false → P s → P (f s))
    (cold : ∀ rateHigh s, P s → P (endReset rateHigh s)) (reset : ∀ s, P s → P (assertReset s))
    (pin : ∀ i contact made s, s.inReset = true → P s → P (s.updSlot i fun c => c.setRaw contact made))
    (change : ∀ i contact made s, s.inReset = false → (s.slot i).raw contact ≠ made → P s →
      P (changeContact i contact made
        (catchUpIf (decide (contact = .late) && !made && (s.slot i).state.cardPresent) i s))) :
    ∀ s t, P s → step s = .next t → P t := by
  have exec_keeps : ∀ c s t, P s → exec c s = .next t → P t := by
    intro c s t hP hexec
    rcases exec_event c with ⟨rateHigh, rfl⟩ | rfl | ⟨i, contact, made, rfl⟩ | ⟨f, hf, hc⟩
    · cases hexec; exact cold rateHigh s hP
    · cases hexec; exact reset s hP
    · cases hexec
      split
      · exact hP
      · split
        · exact pin i contact made s ‹_› hP
        · exact change i contact made s (by simpa using ‹¬ s.inReset = true›) ‹_› hP
    · rw [hc] at hexec
      cases hexec
      split
      · exact hP
      · exact event f hf s (by simpa using ‹¬ s.inReset = true›) hP
  intro s t hP hstep
  cases hq : s.pending with
  | nil =>
    rw [step_idle hq] at hstep
    cases hstep
    exact hP
  | cons c rest =>
    rw [step_cons hq] at hstep
    exact exec_keeps c _ t (queue s rest hP) hstep

/-- Settles O1. -/
theorem stepRunsFrontCommand : Obligations.StepRunsFrontCommand :=
  ⟨step_inFront, fun _ h => step_idle h⟩

/-- Settles O2: the resets and the pins answer a next state, and so does every event, in RESET or not. -/
theorem everyCommandAnswersNextState : Obligations.EveryCommandAnswersNextState := by
  intro c s
  rcases exec_event c with ⟨rateHigh, rfl⟩ | rfl | ⟨i, contact, made, rfl⟩ | ⟨f, _, hc⟩
  · exact ⟨_, rfl⟩
  · exact ⟨_, rfl⟩
  · exact ⟨_, rfl⟩
  · rw [hc]; exact whenLive_next f s

end Sys2Proof.Machine
end

section
/-!
PROOF. The small moves that every event of a running machine is made of: a slot enters a state, is powered down, granted,
queued or placed; a set, the sequencer or a setting changes. Each invariant of the slots and of the blocks they share is
proved once for each move.
-/
namespace Sys2Proof.Machine

/-! ### What the safety properties speak of -/

/-- Two records of a slot that agree on everything the safety properties of the slots speak of. -/
structure Slot.Alike (c d : Slot) : Prop where
  state : d.state = c.state
  allowance : d.allowance = c.allowance
  screening : d.screening = c.screening
  grant : d.grant = c.grant
  lines : d.stbyEn = c.stbyEn ∧ d.mainEn = c.mainEn ∧ d.cardRst = c.cardRst ∧ (d.standby = .off ↔ c.standby = .off)
  contacts : d.early = c.early ∧ d.late = c.late ∧ d.earlyRaw = c.earlyRaw ∧ d.lateRaw = c.lateRaw ∧
    d.debounceEarly = c.debounceEarly ∧ d.debounceLate = c.debounceLate
  timers : d.timers = c.timers
  pin : d.pin = c.pin
  threshold : d.threshold = c.threshold

theorem Slot.Alike.refl (c : Slot) : c.Alike c :=
  ⟨rfl, rfl, rfl, rfl, ⟨rfl, rfl, rfl, .rfl⟩, ⟨rfl, rfl, rfl, rfl, rfl, rfl⟩, rfl, rfl, rfl⟩

theorem Slot.Alike.of_eq {c d : Slot} (h : d = c) : c.Alike d := h ▸ .refl d

theorem Slot.Alike.trans {a b c : Slot} (h1 : a.Alike b) (h2 : b.Alike c) : a.Alike c where
  state := h2.state.trans h1.state
  allowance := h2.allowance.trans h1.allowance
  screening := h2.screening.trans h1.screening
  grant := h2.grant.trans h1.grant
  lines := by
    obtain ⟨s1, m1, r1, b1⟩ := h1.lines
    obtain ⟨s2, m2, r2, b2⟩ := h2.lines
    exact ⟨s2.trans s1, m2.trans m1, r2.trans r1, b2.trans b1⟩
  contacts := by
    obtain ⟨a1, b1, c1, d1, e1, f1⟩ := h1.contacts
    obtain ⟨a2, b2, c2, d2, e2, f2⟩ := h2.contacts
    exact ⟨a2.trans a1, b2.trans b1, c2.trans c1, d2.trans d1, e2.trans e1, f2.trans f1⟩
  timers := h2.timers.trans h1.timers
  pin := h2.pin.trans h1.pin
  threshold := h2.threshold.trans h1.threshold

theorem Slot.Alike.power {c d : Slot} (h : c.Alike d) : d.power = c.power := by
  unfold Slot.power; rw [h.screening]

/-- Two states that agree on the blocks the slots share: the arbiter, the planner, the sets, the sequencer and the margin
of the overload thresholds. -/
structure SameBlocks (s t : State) : Prop where
  inReset : t.inReset = s.inReset
  arbiter : t.arbiter = s.arbiter
  planner : t.planner = s.planner
  sets : t.sets = s.sets
  sequencer : t.sequencer = s.sequencer
  margin : t.monitor.margin = s.monitor.margin

theorem SameBlocks.refl (s : State) : SameBlocks s s := ⟨rfl, rfl, rfl, rfl, rfl, rfl⟩

theorem SameBlocks.trans {a b c : State} (h1 : SameBlocks a b) (h2 : SameBlocks b c) : SameBlocks a c :=
  ⟨h2.1.trans h1.1, h2.2.trans h1.2, h2.3.trans h1.3, h2.4.trans h1.4, h2.5.trans h1.5, h2.6.trans h1.6⟩

/-- Of what the safety properties speak of, u to t changes slot i alone, and that as g does. -/
structure Changes (i : SlotId) (g : Slot → Slot) (u t : State) : Prop where
  blocks : SameBlocks u t
  others : ∀ j, j ≠ i → (u.slot j).Alike (t.slot j)
  self : (g (u.slot i)).Alike (t.slot i)

/-- Two states that agree on everything the safety properties of the slots and their blocks speak of. -/
structure SoftEq (s t : State) : Prop where
  blocks : SameBlocks s t
  slots : ∀ j, (s.slot j).Alike (t.slot j)

theorem SoftEq.refl (s : State) : SoftEq s s := ⟨.refl s, fun _ => .refl _⟩

theorem SoftEq.trans {a b c : State} (h1 : SoftEq a b) (h2 : SoftEq b c) : SoftEq a c :=
  ⟨h1.blocks.trans h2.blocks, fun j => (h1.slots j).trans (h2.slots j)⟩

theorem Changes.then_soft {i : SlotId} {g : Slot → Slot} {u t v : State} (h : Changes i g u t) (hv : SoftEq t v) :
    Changes i g u v :=
  ⟨h.blocks.trans hv.blocks, fun j hj => (h.others j hj).trans (hv.slots j), h.self.trans (hv.slots i)⟩

theorem changes_updSlot (i : SlotId) (g : Slot → Slot) (s : State) : Changes i g s (s.updSlot i g) :=
  ⟨⟨rfl, rfl, rfl, rfl, rfl, rfl⟩, fun _ hj => .of_eq (slot_updSlot_ne s g hj), .of_eq (slot_updSlot_self s i g)⟩

/-- A state whose slots are those of u with one replaced changes that slot alone. -/
theorem changes_set {i : SlotId} {g : Slot → Slot} {u t : State} {c : Slot} (hb : SameBlocks u t)
    (hs : t.slots = u.slots.set i c) (ha : (g (u.slot i)).Alike c) : Changes i g u t :=
  ⟨hb, fun _ hj => .of_eq (slot_of_set hs hj), by rw [slot_of_set_self hs]; exact ha⟩

theorem softEq_updSlot {i : SlotId} {g : Slot → Slot} {s : State} (h : (s.slot i).Alike (g (s.slot i))) :
    SoftEq s (s.updSlot i g) := by
  refine ⟨⟨rfl, rfl, rfl, rfl, rfl, rfl⟩, fun j => ?_⟩
  by_cases hj : j = i
  · subst hj; rw [slot_updSlot_self]; exact h
  · exact .of_eq (slot_updSlot_ne s g hj)

theorem softEq_mapSlots {g : Slot → Slot} {s : State} (h : ∀ c : Slot, c.Alike (g c)) :
    SoftEq s { s with slots := s.slots.map g } :=
  ⟨⟨rfl, rfl, rfl, rfl, rfl, rfl⟩, fun _ => by rw [slot_mapSlots]; exact h _⟩

theorem softEq_of_slots {s t : State} (hb : SameBlocks s t) (h : t.slots = s.slots) : SoftEq s t :=
  ⟨hb, fun j => .of_eq (slot_congr j h)⟩

/-- Which timers may run in a state (01 R27). -/
def StateTimers.Fits (T : StateTimers) (st : SlotState) : Prop :=
  (T.consent.isSome ↔ st = .consentWait) ∧ (T.ramp.isSome ↔ st = .powering) ∧ (T.resetHold.isSome ↔ st = .resetHold) ∧
    (T.ready.isSome ↔ st = .readyWait) ∧ (T.cooldown.isSome ↔ st = .cooldown) ∧ (T.poll.isSome → st = .readyWait)

theorem idle_fits {st : SlotState} (h : st.timed = false) : StateTimers.idle.Fits st := by
  cases st <;> simp_all [StateTimers.Fits, StateTimers.idle, SlotState.timed]

/-- The unlock allowance a slot may take into a state from its own (04 R80): 0 with BARRED, or, as it stands, from a state
in which it is not 0. -/
def Slot.AllowanceFits (c : Slot) (a : Nat) (st : SlotState) : Prop :=
  (a ≤ c.allowance ∨ a ≤ 3) ∧ ((a = 0 ↔ st = .barred) ∨
    a = c.allowance ∧ st ≠ .barred ∧ (st = .disabled ∨ c.state ≠ .barred ∧ c.state ≠ .disabled))

/-- A contact's debounce timer runs exactly while its raw input differs from its debounced state (01 R5). -/
def Slot.Follows (c : Slot) (contact : Contact) : Prop :=
  (c.debounceTimer contact).isSome ↔ c.raw contact ≠ c.debounced contact

/-- What one slot looks like after its contacts alone have changed. -/
def Slot.withContacts (c d : Slot) : Slot :=
  { c with early := d.early, late := d.late, earlyRaw := d.earlyRaw, lateRaw := d.lateRaw,
           debounceEarly := d.debounceEarly, debounceLate := d.debounceLate }

/-! ### The moves -/

/-- One small move of a running machine. The states of `SlotState.parkable` are those that hold a place in a queue, a grant
or a window; the other states hold none. -/
inductive Micro : State → State → Prop where
  /-- Nothing that the properties speak of changes. -/
  | soft {s t : State} : SoftEq s t → Micro s t
  /-- From one state without power and without a place into another. -/
  | enters {s t : State} (i : SlotId) (st : SlotState) (r : Reason) (a : Nat) (results : Screening) (T : StateTimers) :
      (s.slot i).state.parkable = false → st.parkable = false → (s.slot i).AllowanceFits a st → T.Fits st →
      Changes i (fun c => { ({ c with allowance := a, screening := results } : Slot).enter st r with timers := T }) s t →
      Micro s t
  /-- The allowance falls but not to 0, or the screening results are written, in a state without power or place. -/
  | amends {s t : State} (i : SlotId) (a : Nat) (results : Screening) : (s.slot i).state.parkable = false →
      (a = (s.slot i).allowance ∨ a ≠ 0 ∧ a ≤ (s.slot i).allowance ∧ (s.slot i).state ≠ .barred) →
      Changes i (fun c => { c with allowance := a, screening := results }) s t → Micro s t
  /-- The power-down actions and the transition with them. -/
  | drops {s t : State} (i : SlotId) (st : SlotState) (r : Reason) (a : Nat) (T : StateTimers) : st.parkable = false →
      (s.slot i).AllowanceFits a st → T.Fits st →
      Changes i (fun c => { c with timers := T })
        (transition i st r (powerDown i (s.updSlot i fun c => { c with allowance := a }))) t → Micro s t
  /-- The head of the power queue is granted. -/
  | grants {s : State} (e : PowerEntry) (rest : List PowerEntry) : s.arbiter.queue = e :: rest →
      s.arbiter.committed + e.power ≤ s.arbiter.budget → s.arbiter.ramping < s.arbiter.rampLimit →
      Micro s (grantPower e rest s)
  /-- A slot of the room queue is placed. -/
  | places {s : State} (i : SlotId) (plan : List PlanWindow) : i ∈ s.planner.room → tryPlace i s = some plan →
      Micro s (joinPlan i plan (leaveRoom i s))
  /-- A slot joins the power queue. -/
  | waits {s : State} (i : SlotId) : ((s.slot i).state.parkable = false ∧ (s.slot i).state ≠ .barred ∧
      (s.slot i).state ≠ .disabled) → (s.slot i).power ≤ s.arbiter.budget →
      Micro s { transition i .powerWait .none s with arbiter := { s.arbiter with
        queue := s.arbiter.queue ++ [{ slot := i, power := (s.slot i).power }] } }
  /-- A ramp succeeds. -/
  | ramps {s t : State} (i : SlotId) (T : StateTimers) : (s.slot i).state = .powering → T.Fits .resetHold →
      Changes i (fun c => { c.enter .resetHold .none with
          threshold := some (overloadThreshold c.power s.monitor.margin), timers := T })
        { s with arbiter := { s.arbiter with ramping := s.arbiter.ramping - 1 } } t → Micro s t
  /-- The next state of a powered slot that has no window yet. -/
  | advances {s t : State} (i : SlotId) (st : SlotState) (r : Reason) (T : StateTimers) :
      ((s.slot i).state = .resetHold ∧ st = .readyWait ∨ (s.slot i).state = .readyWait ∧ st = .configuring) → T.Fits st →
      Changes i (fun c => { c.enter st r with timers := T }) s t → Micro s t
  /-- The timers of a slot change within its state. -/
  | times {s t : State} (i : SlotId) (T : StateTimers) : ((s.slot i).timersFollow → T.Fits (s.slot i).state) →
      Changes i (fun c => { c with timers := T }) s t → Micro s t
  /-- A set is pinned in CONFIGURING. -/
  | pins {s t : State} (i : SlotId) (n : Fin 8) : (s.slot i).state = .configuring → (s.slot i).pin = none →
      s.sets[n].state = .ready → Changes i (fun c => { c with pin := some n })
        { s with sets := s.sets.set n { s.sets[n] with pins := s.sets[n].pins + 1 } } t → Micro s t
  /-- A set is pinned in the event that enters CONFIGURING. -/
  | configures {s t : State} (i : SlotId) (n : Fin 8) (r : Reason) : (s.slot i).state = .readyWait →
      s.sets[n].state = .ready → Changes i (fun c => { c.enter .configuring r with pin := some n })
        { s with sets := s.sets.set n { s.sets[n] with pins := s.sets[n].pins + 1 } } t → Micro s t
  | unpins {s t : State} (i : SlotId) (n : Fin 8) : (s.slot i).pin = some n → Changes i (fun c => { c with pin := none })
        { s with sets := s.sets.set n { s.sets[n] with pins := s.sets[n].pins - 1 } } t → Micro s t
  /-- A slot's window enters the plan at its insertion. -/
  | joins {s : State} (i : SlotId) (plan : List PlanWindow) :
      ((s.slot i).state = .readyWait ∨ (s.slot i).state = .configuring ∧ (s.slot i).pin = none) →
      tryPlace i s = some plan → Micro s (joinPlan i plan s)
  /-- A slot joins the room queue at its insertion. -/
  | rooms {s : State} (i : SlotId) :
      ((s.slot i).state = .readyWait ∨ (s.slot i).state = .configuring ∧ (s.slot i).pin = none) →
      Micro s (transition i .roomWait .noRoom { s with planner := { s.planner with room := s.planner.room ++ [i] } })
  | runs {s t : State} (i : SlotId) : (s.slot i).state = .joining → Changes i (fun c => c.enter .running .none) s t →
      Micro s t
  /-- SET_POWER stores its settings. -/
  | power {s : State} (v : PowerFields) : s.arbiter.committed ≤ v.budget.toNat → s.arbiter.ramping ≤ v.rampLimit.toNat →
      Micro s (recomputeThresholds (storePower v s))
  /-- SET_CYCLE stores its settings, and a new mode moves the sequencer. -/
  | cycle {s t : State} (v : CycleSettings) : 2500 ≤ v.length → v.length ≤ 500000 → 10 ≤ v.tolerance →
      v.tolerance ≤ 500 → planFits v s.planner.plan = true →
      (v.mode = .off → s.planner.settings.mode = .off ∨ s.anyPlanned = false) →
      t.planner = { s.planner with settings := v } → t.sequencer.active = s.sequencer.active →
      (t.sequencer.run = s.sequencer.run ∨ t.sequencer.run = none) → (s.cycleSound → t.cycleSound) →
      SoftEq s { t with planner := s.planner, sequencer := s.sequencer } → Micro s t
  /-- An unpinned set is written. -/
  | sets {s t : State} : SoftEq s { t with sets := s.sets } →
      (∀ n : Fin 8, t.sets[n] = s.sets[n] ∨
        s.sets[n].pins = 0 ∧ t.sets[n].pins = 0 ∧ (s.sets[n].sound → t.sets[n].sound)) → Micro s t
  /-- The sequencer goes on. -/
  | sequencer {s t : State} : SoftEq s { t with sequencer := s.sequencer } →
      ((s.planner.plan.map PlanWindow.slot).Nodup → s.selSound → t.selSound) → (s.cycleSound → t.cycleSound) → Micro s t

/-- A small move, or a run of small ones over a queue, each of whose slots waits there by `State.queuesSound`. -/
inductive Small : State → State → Prop where
  | micro {s t : State} : Micro s t → Small s t
  | walks (s : State) : Small s (walkRoom s)
  | refuses (s : State) : Small s (refuseQueued s.arbiter.queue s)

/-- Finitely many steps of a relation, none included. -/
inductive Chained (r : State → State → Prop) (s : State) : State → Prop where
  | refl : Chained r s s
  | tail {t u : State} : Chained r s t → r t u → Chained r s u

theorem Chained.single {r : State → State → Prop} {s t : State} (h : r s t) : Chained r s t := .tail .refl h

theorem Chained.trans {r : State → State → Prop} {s t u : State} (hst : Chained r s t) (htu : Chained r t u) :
    Chained r s u := by
  induction htu with
  | refl => exact hst
  | tail _ h ih => exact .tail ih h

theorem Chained.head {r : State → State → Prop} {s t u : State} (hst : r s t) (htu : Chained r t u) : Chained r s u :=
  (Chained.single hst).trans htu

theorem Chained.mono {r q : State → State → Prop} (hrq : ∀ s t, r s t → q s t) {s t : State} (h : Chained r s t) :
    Chained q s t := by
  induction h with
  | refl => exact .refl
  | tail _ h ih => exact .tail ih (hrq _ _ h)

/-- Any number of them. -/
abbrev Smalls : State → State → Prop := Chained Small

theorem Micro.smalls {s t : State} (h : Micro s t) : Smalls s t := .single (.micro h)

/-! ### No power and no room left idle -/

/-- The pending plan is that of the slots in JOINING and RUNNING (08 R139, R141); whether a slot of the room queue could be
placed is left open. -/
structure PlanAccounted (s : State) : Prop where
  nodup : (s.planner.plan.map PlanWindow.slot).Nodup
  members : ∀ i, i ∈ s.planner.plan.map PlanWindow.slot ↔ (s.slot i).state = .joining ∨ (s.slot i).state = .running
  order : s.planner.plan.Pairwise (fun v w => v.precedes w = true)
  fits : planFits s.planner.settings s.planner.plan = true
  carries : ∀ w ∈ s.planner.plan, s.carries w
  off : s.planner.settings.mode = .off → s.planner.plan = []
  ranges : 2500 ≤ s.planner.settings.length ∧ s.planner.settings.length ≤ 500000 ∧
    10 ≤ s.planner.settings.tolerance ∧ s.planner.settings.tolerance ≤ 500

/-- No slot of the room queue could be placed (08 R144). -/
def State.roomBlocked (s : State) : Prop := ∀ i ∈ s.planner.room, tryPlace i s = none

/-- A move: small ones that together leave neither power nor room idle, the head of the power queue and the slots of the
room queue waiting with reason (05 R92, 08 R144). -/
structure Move (s t : State) : Prop where
  smalls : Smalls s t
  power : s.queuesSound → s.arbiter.blocked → t.arbiter.blocked
  room : s.queuesSound → PlanAccounted s → s.roomBlocked → t.roomBlocked

/-- Any number of moves. -/
abbrev Moves : State → State → Prop := Chained Move

/-- A move, or a change of a slot's contacts with their debounce timers. -/
inductive Turn : State → State → Prop where
  | move {s t : State} : Move s t → Turn s t
  | contacts {s t : State} (i : SlotId) : (∀ contact, (s.slot i).Follows contact → (t.slot i).Follows contact) →
      Changes i (fun c => c.withContacts (t.slot i)) s t → Turn s t

/-- Any number of moves and changes of contacts. -/
abbrev Turns : State → State → Prop := Chained Turn

theorem Moves.turns {s t : State} (h : Moves s t) : Turns s t := Chained.mono (fun _ _ => Turn.move) h

theorem Moves.smalls {s t : State} (h : Moves s t) : Smalls s t := by
  induction h with
  | refl => exact .refl
  | tail _ h ih => exact ih.trans h.smalls

/-- A placement depends on the plan, the settings and the slot's screening results alone. -/
theorem tryPlace_congr {i : SlotId} {s t : State} (hplan : t.planner.plan = s.planner.plan)
    (hsettings : t.planner.settings = s.planner.settings) (hscreening : (t.slot i).screening = (s.slot i).screening) :
    tryPlace i t = tryPlace i s := by
  unfold tryPlace
  rw [hplan, hsettings, hscreening]

/-- The room queue stays blocked where no window leaves the plan and no slot of the queue has other results. -/
theorem State.roomBlocked.congr {s t : State} (h : s.roomBlocked) (hplan : t.planner.plan = s.planner.plan)
    (hsettings : t.planner.settings = s.planner.settings) (hroom : ∀ j ∈ t.planner.room, j ∈ s.planner.room)
    (hscreening : ∀ j ∈ t.planner.room, (t.slot j).screening = (s.slot j).screening) : t.roomBlocked := fun j hj => by
  rw [tryPlace_congr hplan hsettings (hscreening j hj)]
  exact h j (hroom j hj)

/-- A small move that leaves the arbiter, and the room queue blocked. -/
theorem Micro.calm {s t : State} (h : Micro s t) (harbiter : t.arbiter = s.arbiter)
    (hroom : s.queuesSound → s.roomBlocked → t.roomBlocked) : Moves s t :=
  .single ⟨h.smalls, fun _ hb => harbiter ▸ hb, fun hq _ => hroom hq⟩

/-- A small move of one slot that leaves the arbiter and the planner, and the slot's results, if it waits for room. -/
theorem Micro.calm_slot {i : SlotId} {g : Slot → Slot} {s u t : State} (h : Micro s t) (hc : Changes i g u t)
    (hslots : ∀ j, u.slot j = s.slot j) (harbiter : u.arbiter = s.arbiter) (hplanner : u.planner = s.planner)
    (hscreening : (s.slot i).state = .roomWait → (g (s.slot i)).screening = (s.slot i).screening) : Moves s t := by
  have hp : t.planner = s.planner := hc.blocks.planner.trans hplanner
  refine h.calm (hc.blocks.arbiter.trans harbiter) fun hq hb => hb.congr (by rw [hp]) (by rw [hp]) (fun j hj => hp ▸ hj)
    fun j hj => ?_
  rw [hp] at hj
  by_cases hji : j = i
  · subst hji
    exact hc.self.screening.trans (by rw [hslots]; exact hscreening ((hq.2.2 j).2.1 hj))
  · rw [(hc.others j hji).screening, hslots]

theorem SoftEq.moves {s t : State} (h : SoftEq s t) : Moves s t :=
  (Micro.soft h).calm h.blocks.arbiter fun _ hb =>
    hb.congr (by rw [h.blocks.planner]) (by rw [h.blocks.planner]) (fun _ hj => h.blocks.planner ▸ hj)
      fun j _ => (h.slots j).screening

end Sys2Proof.Machine
end

section
/-!
PROOF. Every shared operation as moves, and from them every event.
-/
namespace Sys2Proof.Machine

/-! ### What changes nothing that the safety properties speak of -/

/-- The fields of a slot that no safety property of the slots speaks of. -/
theorem Slot.alike_soft (c : Slot) (reason : Reason) (faultCount overruns transitions wordsWritten residual : Nat)
    (traceRef : Option Nat) (pollDue : Bool) (readBuffer : List Byte) (walkPos offers transferCount overCurrentRun
      pgGoodRun pgLostRun : Nat) (inbox : SlotInbox) :
    c.Alike { c with
      reason := reason, faultCount := faultCount, overruns := overruns, transitions := transitions
      wordsWritten := wordsWritten, residual := residual, traceRef := traceRef, pollDue := pollDue
      readBuffer := readBuffer, walkPos := walkPos, offers := offers, transferCount := transferCount
      overCurrentRun := overCurrentRun, pgGoodRun := pgGoodRun, pgLostRun := pgLostRun, inbox := inbox } :=
  ⟨rfl, rfl, rfl, rfl, ⟨rfl, rfl, rfl, .rfl⟩, ⟨rfl, rfl, rfl, rfl, rfl, rfl⟩, rfl, rfl, rfl⟩

theorem Changes.congr {i : SlotId} {g h : Slot → Slot} {u t : State} (hc : Changes i g u t)
    (e : g (u.slot i) = h (u.slot i)) : Changes i h u t :=
  ⟨hc.blocks, hc.others, e ▸ hc.self⟩

theorem softEq_postNotice (n : Notice) (s : State) : SoftEq s (postNotice n s) :=
  softEq_of_slots ⟨rfl, rfl, rfl, rfl, rfl, rfl⟩ rfl

theorem softEq_writeReason (i : SlotId) (r : Reason) (s : State) : SoftEq s (writeReason i r s) :=
  (softEq_updSlot (Slot.alike_soft ..)).trans (softEq_postNotice ..)

theorem softEq_transmit (s : State) : SoftEq s (transmit s) :=
  ⟨⟨by simp, by simp, by simp, by simp, by simp, by simp⟩, fun j => by
    rcases slot_transmit s j with h | h <;> rw [h]
    · exact .refl _
    · exact Slot.alike_soft ..⟩

theorem softEq_issueJob (i : SlotId) (t : Transaction) (s : State) : SoftEq s (issueJob i t s) :=
  softEq_of_slots ⟨by simp, by simp, by simp, by simp, by simp, by simp⟩ (by simp)

theorem softEq_withdrawJob (i : SlotId) (s : State) : SoftEq s (withdrawJob i s) := by
  refine ⟨⟨by simp, by simp, by simp, by simp, by simp, by simp⟩, fun j => ?_⟩
  by_cases hj : j = i
  · subst hj
    obtain ⟨q, hq⟩ := withdrawJob_slot j s
    rw [hq]
    exact Slot.alike_soft ..
  · exact .of_eq (slot_withdrawJob_ne i s hj)

theorem softEq_engine (s : State) (e : Engine) : SoftEq s { s with engine := e } :=
  softEq_of_slots ⟨rfl, rfl, rfl, rfl, rfl, rfl⟩ rfl

theorem softEq_startJob (s : State) : SoftEq s (startJob s) :=
  softEq_of_slots ⟨by simp, by simp, by simp, by simp, by simp, by simp⟩ (by simp)

theorem softEq_endJob (cur : CurrentJob) (o : JobOutcome) (d : List Byte) (n : Nat) (k : Option Nat) (s : State) :
    SoftEq s (endJob cur o d n k s) :=
  ((softEq_updSlot (Slot.alike_soft ..)).trans (softEq_engine ..)).trans (softEq_startJob _)

theorem softEq_recorder (s : State) (r : Recorder) : SoftEq s { s with recorder := r } :=
  softEq_of_slots ⟨rfl, rfl, rfl, rfl, rfl, rfl⟩ rfl

theorem softEq_link (s : State) (l : Link) : SoftEq s { s with link := l } :=
  softEq_of_slots ⟨rfl, rfl, rfl, rfl, rfl, rfl⟩ rfl

/-! ### Transitions -/

theorem changes_transition (i : SlotId) (st : SlotState) (r : Reason) (s : State) :
    Changes i (fun c => c.enter st r) s (transition i st r s) :=
  ⟨⟨by simp, by simp, by simp, by simp, by simp, by simp⟩,
    fun _ hj => .of_eq (slot_transition_ne i st r s hj), .of_eq (slot_transition_self i st r s)⟩

/-- A transition between states without power or place, the allowance and the results as they stand. -/
theorem moves_transition {i : SlotId} {st : SlotState} {r : Reason} {s : State}
    (hfrom : (s.slot i).state.parkable = false) (hto : st.parkable = false)
    (hallow : (s.slot i).AllowanceFits (s.slot i).allowance st) (htimed : st.timed = false) :
    Moves s (transition i st r s) :=
  have hc := (changes_transition i st r s).congr (h := fun c =>
    { ({ c with allowance := (s.slot i).allowance, screening := (s.slot i).screening } : Slot).enter st r with
      timers := .idle }) rfl
  (Micro.enters i st r _ (s.slot i).screening .idle hfrom hto hallow (idle_fits htimed) hc).calm_slot hc (fun _ => rfl) rfl
    rfl fun hw => by rw [hw] at hfrom; cases hfrom

/-- A state that is neither BARRED nor DISABLED holds some allowance, which may go anywhere but to BARRED. -/
theorem Slot.allowanceFits_stands {c : Slot} {st : SlotState} (hb : c.state ≠ .barred) (hd : c.state ≠ .disabled)
    (hst : st ≠ .barred) : c.AllowanceFits c.allowance st :=
  ⟨.inl (Nat.le_refl _), .inr ⟨rfl, hst, .inr ⟨hb, hd⟩⟩⟩

theorem updSlot_id (i : SlotId) (s : State) : s.updSlot i (fun c => { c with allowance := (s.slot i).allowance }) = s :=
  setSlot_slot s i

/-! ### The moves as a change of blocks and of one slot -/

theorem Changes.softEq {i : SlotId} {g : Slot → Slot} {u t : State} (h : Changes i g u t) : SoftEq (u.updSlot i g) t := by
  have hsame : SameBlocks (u.updSlot i g) u := ⟨rfl, rfl, rfl, rfl, rfl, rfl⟩
  refine ⟨hsame.trans h.blocks, fun j => ?_⟩
  by_cases hj : j = i
  · subst hj; rw [slot_updSlot_self]; exact h.self
  · rw [slot_updSlot_ne _ _ hj]; exact h.others j hj

/-- The parameter sets without a slot's pin (06 R118). -/
def unpinSets (pin : Option (Fin 8)) (sets : Vector ParamSet 8) : Vector ParamSet 8 :=
  match pin with
  | none => sets
  | some n => sets.set n { sets[n] with pins := sets[n].pins - 1 }

/-- What the power-down actions of a slot make of the blocks (01 R9). -/
def dropBlocks (i : SlotId) (s : State) : State :=
  { s with
    arbiter := { s.arbiter with
      committed := if (s.slot i).grant then s.arbiter.committed - (s.slot i).power else s.arbiter.committed
      ramping := if (s.slot i).grant ∧ (s.slot i).state = .powering then s.arbiter.ramping - 1 else s.arbiter.ramping
      queue := s.arbiter.queue.filter fun e => decide (e.slot ≠ i) }
    planner := { s.planner with
      plan := s.planner.plan.filter fun w => decide (w.slot ≠ i)
      room := s.planner.room.filter fun j => decide (j ≠ i) }
    sequencer := { s.sequencer with
      active := s.sequencer.active.map fun w => if w.slot = i then { w with muted := true } else w
      run := s.sequencer.run.filter fun run => decide (run.slot ≠ i) }
    sets := unpinSets (s.slot i).pin s.sets }

/-- What the power-down actions make of the slot's record, as far as the safety properties speak of it. -/
def Slot.dropped (c : Slot) (a : Nat) : Slot := { c with grant := false, pin := none, threshold := none, allowance := a }

theorem releaseGrant_arbiter (i : SlotId) (s : State) : (releaseGrant i s).arbiter = { s.arbiter with
    committed := if (s.slot i).grant then s.arbiter.committed - (s.slot i).power else s.arbiter.committed
    ramping := if (s.slot i).grant ∧ (s.slot i).state = .powering then s.arbiter.ramping - 1 else s.arbiter.ramping } := by
  unfold releaseGrant
  dsimp only
  split
  · simp only [*, true_and]
  · simp [*]

theorem powerDown_arbiter (i : SlotId) (s : State) : (powerDown i s).arbiter = (dropBlocks i s).arbiter := by
  have h := releaseGrant_arbiter i (leaveRoom i (withdrawWindow i (muteWindow i s)))
  simp only [powerDown, dropChecks, updSlot_arbiter, cutTransfer, endTransfer_arbiter, withdrawJob_arbiter]
  unfold leavePowerQueue
  rw [h]
  rfl

theorem endTransfer_sets (i : SlotId) (k : Nat) (s : State) : (endTransfer i k s).sets = unpinSets (s.slot i).pin s.sets := by
  unfold endTransfer
  cases (s.slot i).pin <;> rfl

theorem powerDown_sets (i : SlotId) (s : State) : (powerDown i s).sets = (dropBlocks i s).sets := by
  generalize hu : withdrawJob i (leavePowerQueue i (releaseGrant i (leaveRoom i (withdrawWindow i (muteWindow i s))))) = u
  have hsets : u.sets = s.sets := by simp [← hu, leaveRoom, withdrawWindow, muteWindow]
  have hpin : (u.slot i).pin = (s.slot i).pin := by
    obtain ⟨q, hq⟩ := withdrawJob_slot i (leavePowerQueue i (releaseGrant i (leaveRoom i (withdrawWindow i (muteWindow i s)))))
    simp only [slot_leavePowerQueue, releaseGrant_slot, slot_leaveRoom, slot_withdrawWindow, slot_muteWindow, hu] at hq
    rw [hq]
  unfold powerDown dropChecks cutTransfer dropBlocks
  rw [hu, updSlot_sets, endTransfer_sets, hpin, hsets]

/-- The power-down actions with their transition: the blocks let go of the slot, and its record is dropped. -/
theorem changes_drop {i : SlotId} {st : SlotState} {r : Reason} {a : Nat} {T : StateTimers} {s t : State}
    (h : Changes i (fun c => { c with timers := T })
      (transition i st r (powerDown i (s.updSlot i fun c => { c with allowance := a }))) t) :
    Changes i (fun c => { (c.dropped a).enter st r with timers := T }) (dropBlocks i s) t := by
  have hslot : (s.updSlot i fun c => { c with allowance := a }).slot i = { s.slot i with allowance := a } :=
    slot_updSlot_self ..
  have hdrop : SameBlocks (dropBlocks i s) (powerDown i (s.updSlot i fun c => { c with allowance := a })) := by
    refine ⟨?_, ?_, ?_, ?_, ?_, ?_⟩
    · rw [powerDown_inReset]; rfl
    · rw [powerDown_arbiter]; unfold dropBlocks; rw [hslot]; rfl
    · rw [powerDown_planner]; rfl
    · rw [powerDown_sets]; unfold dropBlocks; rw [hslot]; rfl
    · rw [powerDown_sequencer]; rfl
    · rw [powerDown_monitor]; rfl
  obtain ⟨htb, hto, _⟩ := changes_transition i st r (powerDown i (s.updSlot i fun c => { c with allowance := a }))
  obtain ⟨hb, ho, hs⟩ := h
  refine ⟨(hdrop.trans htb).trans hb, fun j hj => ?_, ?_⟩
  · refine Slot.Alike.trans (.of_eq ?_) ((hto j hj).trans (ho j hj))
    rw [slot_powerDown_ne _ _ hj, slot_updSlot_ne _ _ hj]
    rfl
  · obtain ⟨q, hq⟩ := powerDown_slot i (s.updSlot i fun c => { c with allowance := a })
    rw [hslot] at hq
    refine Slot.Alike.trans ?_ hs
    rw [slot_transition_self, hq]
    exact Slot.alike_soft ..

/-- A grant, of the head of the queue (05 R93). -/
theorem changes_grant (e : PowerEntry) (rest : List PowerEntry) (s : State) :
    Changes e.slot (fun c => { c.enter .powering .none with
        grant := true, timers := { StateTimers.idle with ramp := some s.times.rampLimit } })
      { s with arbiter := { s.arbiter with
          committed := s.arbiter.committed + e.power, ramping := s.arbiter.ramping + 1, queue := rest } }
      (grantPower e rest s) := by
  obtain ⟨hb, ho, _⟩ := changes_transition e.slot .powering .none
    { s with arbiter := { s.arbiter with
        committed := s.arbiter.committed + e.power, ramping := s.arbiter.ramping + 1, queue := rest } }
  unfold grantPower
  refine ⟨hb.trans (changes_updSlot e.slot _ _).blocks,
    fun j hj => (ho j hj).trans ((changes_updSlot e.slot _ _).others j hj), ?_⟩
  dsimp only
  rw [slot_updSlot_self, slot_transition_self]
  exact Slot.alike_soft ..

/-- A placement of a slot that leaves the room queue (08 R144). -/
theorem changes_place (i : SlotId) (plan : List PlanWindow) (s : State) :
    Changes i (fun c => c.enter .joining .none)
      { s with planner := { s.planner with plan := plan, room := s.planner.room.filter fun j => decide (j ≠ i) } }
      (joinPlan i plan (leaveRoom i s)) :=
  changes_transition ..

theorem changes_join (i : SlotId) (plan : List PlanWindow) (s : State) :
    Changes i (fun c => c.enter .joining .none) { s with planner := { s.planner with plan := plan } } (joinPlan i plan s) :=
  changes_transition ..

theorem changes_room (i : SlotId) (s : State) : Changes i (fun c => c.enter .roomWait .noRoom)
    { s with planner := { s.planner with room := s.planner.room ++ [i] } }
    (transition i .roomWait .noRoom { s with planner := { s.planner with room := s.planner.room ++ [i] } }) :=
  changes_transition ..

theorem changes_wait (i : SlotId) (s : State) : Changes i (fun c => c.enter .powerWait .none)
    { s with arbiter := { s.arbiter with queue := s.arbiter.queue ++ [{ slot := i, power := (s.slot i).power }] } }
    { transition i .powerWait .none s with arbiter := { s.arbiter with
      queue := s.arbiter.queue ++ [{ slot := i, power := (s.slot i).power }] } } := by
  obtain ⟨hb, ho, hs⟩ := changes_transition i .powerWait .none s
  exact ⟨⟨hb.inReset, rfl, hb.planner, hb.sets, hb.sequencer, hb.margin⟩, ho, hs⟩

/-! ### The examination leaves no power idle, the walk no room -/

theorem smalls_examineFrom (q : List PowerEntry) : ∀ s : State, s.arbiter.queue = q → Smalls s (examineFrom q s) := by
  induction q with
  | nil => exact fun _ _ => .refl
  | cons e q ih =>
    intro s hq
    unfold examineFrom
    split
    · rename_i hfits
      exact (Micro.grants e q hq hfits.1 hfits.2).smalls.trans (ih _ (by simp))
    · exact .refl

theorem smalls_examine (s : State) : Smalls s (examine s) := smalls_examineFrom _ s rfl

theorem examine_screening (s : State) (j : SlotId) : ((examine s).slot j).screening = (s.slot j).screening :=
  (keeps_examine j s).screening

theorem roomBlocked_examine {s : State} (h : s.roomBlocked) : (examine s).roomBlocked :=
  h.congr (by rw [examine_planner]) (by rw [examine_planner]) (fun j hj => by rwa [examine_planner] at hj)
    fun j _ => examine_screening s j

/-- What ends in an examination leaves no power idle. -/
theorem Smalls.examined {s t : State} (h : Smalls s t)
    (hroom : s.queuesSound → PlanAccounted s → s.roomBlocked → t.roomBlocked) : Moves s (examine t) :=
  .single ⟨h.trans (smalls_examine t), fun _ _ => (examine_arbiter t).2.1,
    fun hq hp hb => roomBlocked_examine (hroom hq hp hb)⟩

/-- The ticks of a plan's windows. -/
def planTicks (plan : List PlanWindow) : Nat := (plan.map fun w => w.window.length).sum

theorem foldl_lengths (plan : List PlanWindow) : ∀ start,
    plan.foldl (fun t w => t + w.window.length) start = start + planTicks plan := by
  induction plan with
  | nil => exact fun _ => rfl
  | cons w plan ih =>
    intro start
    rw [List.foldl_cons, ih]
    simp [planTicks, Nat.add_assoc]

/-- A plan fits where its windows end within the limit. -/
theorem planFits_iff (v : CycleSettings) (plan : List PlanWindow) : planFits v plan = true ↔
    ∀ limit, planLimit v = some limit → plan = [] ∨ Config.leadGap + planTicks plan ≤ limit := by
  unfold planFits
  cases planLimit v with
  | none => simp
  | some limit =>
    cases plan with
    | nil => simp
    | cons w plan => simp [planEnd, ← foldl_lengths]

theorem placeWindow_perm (w : PlanWindow) (plan : List PlanWindow) : (placeWindow w plan).Perm (w :: plan) := by
  induction plan with
  | nil => exact .refl _
  | cons v plan ih =>
    unfold placeWindow
    split
    · exact .refl _
    · exact (ih.cons v).trans (.swap w v plan)

theorem planTicks_placeWindow (w : PlanWindow) (plan : List PlanWindow) :
    planTicks (placeWindow w plan) = w.window.length + planTicks plan := by
  unfold planTicks
  rw [((placeWindow_perm w plan).map _).sum_nat]
  simp

theorem placeWindow_ne_nil (w : PlanWindow) (plan : List PlanWindow) : placeWindow w plan ≠ [] := by
  intro h
  have hmem := (mem_placeWindow w w plan).2 (.inl rfl)
  rw [h] at hmem
  cases hmem

/-- A window that fits beside a plan fits beside a shorter one, within no lower limit. -/
theorem planFits_place {v v' : CycleSettings} {w : PlanWindow} {p q : List PlanWindow} (hle : planTicks p ≤ planTicks q)
    (hlimit : ∀ limit, planLimit v = some limit → ∃ limit', planLimit v' = some limit' ∧ limit' ≤ limit)
    (h : planFits v' (placeWindow w q) = true) : planFits v (placeWindow w p) = true := by
  rw [planFits_iff] at h ⊢
  intro limit hl
  obtain ⟨limit', hl', hle'⟩ := hlimit limit hl
  rcases h limit' hl' with hnil | hfits
  · exact absurd hnil (placeWindow_ne_nil w q)
  · rw [planTicks_placeWindow] at hfits ⊢
    exact .inr (by omega)

/-- A slot that could not be placed cannot be placed in a fuller plan, nor under settings with no higher limit. -/
theorem tryPlace_none_mono {i : SlotId} {s t : State} (h : tryPlace i s = none)
    (hscreening : (t.slot i).screening = (s.slot i).screening) (hle : planTicks s.planner.plan ≤ planTicks t.planner.plan)
    (hmode : t.planner.settings.mode ≠ .off → s.planner.settings.mode ≠ .off)
    (hlimit : t.planner.settings.mode ≠ .off → ∀ limit, planLimit s.planner.settings = some limit →
      ∃ limit', planLimit t.planner.settings = some limit' ∧ limit' ≤ limit) : tryPlace i t = none := by
  cases hplace : tryPlace i t with
  | none => rfl
  | some plan =>
    obtain ⟨rank, window, hon, hrank, hwindow, rfl, hfits⟩ := tryPlace_some hplace
    rw [hscreening] at hrank hwindow
    rw [tryPlace_on (hmode hon) hrank hwindow] at h
    dsimp only at h
    rw [if_pos (planFits_place hle (hlimit hon) hfits)] at h
    cases h

/-- Placing one slot leaves the others no better off. -/
theorem tryPlace_none_placed {i k : SlotId} {plan : List PlanWindow} {s t : State} (h : tryPlace i s = none)
    (hplace : tryPlace k s = some plan) (hplan : t.planner.plan = plan) (hsettings : t.planner.settings = s.planner.settings)
    (hscreening : (t.slot i).screening = (s.slot i).screening) : tryPlace i t = none := by
  obtain ⟨rank, window, _, _, _, hp, _⟩ := tryPlace_some hplace
  refine tryPlace_none_mono h hscreening ?_ (by rw [hsettings]; exact id) fun _ limit hl => ⟨limit, by rw [hsettings]; exact hl, Nat.le_refl _⟩
  rw [hplan, hp, planTicks_placeWindow]
  exact Nat.le_add_left _ _

/-- A change of one slot that leaves its results leaves every slot's results. -/
theorem Changes.screening {i : SlotId} {g : Slot → Slot} {u t : State} (h : Changes i g u t)
    (hg : (g (u.slot i)).screening = (u.slot i).screening) (j : SlotId) :
    (t.slot j).screening = (u.slot j).screening := by
  by_cases hj : j = i
  · subst hj; exact h.self.screening.trans hg
  · exact (h.others j hj).screening

/-- A walk visits every slot of the room queue, and leaves none that could be placed (08 R144). -/
theorem walkFrom_blocked (q : List SlotId) : ∀ s : State, (∀ j ∈ s.planner.room, j ∈ q ∨ tryPlace j s = none) →
    (walkFrom q s).roomBlocked := by
  induction q with
  | nil => exact fun s h j hj => (h j hj).resolve_left List.not_mem_nil
  | cons i q ih =>
    intro s h
    unfold walkFrom
    cases hplace : tryPlace i s with
    | none =>
      refine ih s fun j hj => ?_
      rcases h j hj with hm | hn
      · rcases List.mem_cons.1 hm with rfl | hm
        · exact .inr hplace
        · exact .inl hm
      · exact .inr hn
    | some plan =>
      refine ih _ fun j hj => ?_
      have hc := changes_place i plan s
      have hp := hc.blocks.planner
      rw [hp] at hj
      obtain ⟨hj, hne⟩ := List.mem_filter.1 hj
      rcases h j hj with hm | hn
      · exact .inl ((List.mem_cons.1 hm).resolve_left (by simpa using hne))
      · exact .inr (tryPlace_none_placed hn hplace (by rw [hp]) (by rw [hp]) (hc.screening rfl j))

theorem walkRoom_blocked (s : State) : (walkRoom s).roomBlocked := walkFrom_blocked _ s fun _ hj => .inl hj

end Sys2Proof.Machine
end

section
/-!
PROOF. The power-down actions as moves.
-/
namespace Sys2Proof.Machine

/-! ### A change of one slot and what another slot does -/

theorem setSlot_comm {i k : SlotId} (s : State) (c d : Slot) (h : k ≠ i) :
    (s.setSlot i c).setSlot k d = (s.setSlot k d).setSlot i c := by
  unfold State.setSlot
  rw [Vector.set_comm]
  exact fun e => h (Fin.ext e.symm)

theorem updSlot_comm {i k : SlotId} (s : State) (f g : Slot → Slot) (h : k ≠ i) :
    (s.updSlot i f).updSlot k g = (s.updSlot k g).updSlot i f := by
  unfold State.updSlot
  rw [slot_setSlot_ne _ _ h, slot_setSlot_ne _ _ (Ne.symm h), setSlot_comm _ _ _ h]

theorem transition_updSlot {i k : SlotId} (st : SlotState) (r : Reason) (f : Slot → Slot) (s : State) (h : k ≠ i) :
    transition k st r (s.updSlot i f) = (transition k st r s).updSlot i f := by
  unfold transition
  rw [updSlot_comm _ _ _ h, slot_updSlot_ne _ _ h]
  unfold postSlot postNotice reportGate
  split
  · simp only [slot_updSlot_ne _ _ h]; rfl
  · dsimp only
    rw [show ∀ (u : State) (r : Recorder), State.slot { u.updSlot i f with recorder := r } k = u.slot k from
      fun u r => slot_updSlot_ne u f h]
    rfl

theorem grantPower_updSlot {i : SlotId} {e : PowerEntry} (rest : List PowerEntry) (f : Slot → Slot) (s : State)
    (h : e.slot ≠ i) : grantPower e rest (s.updSlot i f) = (grantPower e rest s).updSlot i f := by
  unfold grantPower
  dsimp only
  rw [updSlot_comm _ _ _ (Ne.symm h), ← transition_updSlot _ _ _ _ h]
  rfl

theorem examineFrom_updSlot {i : SlotId} (f : Slot → Slot) (q : List PowerEntry) : ∀ s : State,
    i ∉ q.map PowerEntry.slot → examineFrom q (s.updSlot i f) = (examineFrom q s).updSlot i f := by
  induction q with
  | nil => exact fun _ _ => rfl
  | cons e q ih =>
    intro s h
    rw [List.map_cons, List.mem_cons, not_or] at h
    unfold examineFrom
    rw [grantPower_updSlot q f s (Ne.symm h.1), ih _ h.2, updSlot_arbiter]
    split <;> rfl

theorem tryPlace_updSlot {i k : SlotId} (f : Slot → Slot) (s : State) (h : k ≠ i) :
    tryPlace k (s.updSlot i f) = tryPlace k s := by
  unfold tryPlace
  rw [slot_updSlot_ne _ _ h]
  rfl

theorem walkFrom_updSlot {i : SlotId} (f : Slot → Slot) (q : List SlotId) : ∀ s : State,
    i ∉ q → walkFrom q (s.updSlot i f) = (walkFrom q s).updSlot i f := by
  induction q with
  | nil => exact fun _ _ => rfl
  | cons k q ih =>
    intro s h
    rw [List.mem_cons, not_or] at h
    have hplace : ∀ plan, joinPlan k plan (leaveRoom k (s.updSlot i f)) = (joinPlan k plan (leaveRoom k s)).updSlot i f :=
      fun plan => transition_updSlot _ _ _
        { leaveRoom k s with planner := { (leaveRoom k s).planner with plan := plan } } (Ne.symm h.1)
    unfold walkFrom
    rw [tryPlace_updSlot f s (Ne.symm h.1)]
    split
    · rw [hplace, ih _ h.2]
    · exact ih s h.2

/-- What follows a power-down elsewhere does not depend on a slot that stands in no queue. -/
theorem followOn_updSlot {i : SlotId} {before : State} (f : Slot → Slot) {s : State} (hr : i ∉ s.planner.room)
    (hq : i ∉ s.arbiter.queue.map PowerEntry.slot) :
    followOn i before (s.updSlot i f) = (followOn i before s).updSlot i f := by
  have hwalk : walkRoom (s.updSlot i f) = (walkRoom s).updSlot i f := walkFrom_updSlot f _ s hr
  have hexam : ∀ u : State, u.arbiter.queue = s.arbiter.queue → examine (u.updSlot i f) = (examine u).updSlot i f :=
    fun u hu => examineFrom_updSlot f _ u (by rw [updSlot_arbiter, hu]; exact hq)
  unfold followOn
  dsimp only
  split <;> split
  · rw [hwalk, hexam _ (by simp)]
  · exact hexam s rfl
  · exact hwalk
  · rfl

/-! ### The power-down actions -/

theorem queues_eq_false {a : Arbiter} {i : SlotId} (h : a.queues i = false) :
    a.queue.filter (fun e => decide (e.slot ≠ i)) = a.queue := by
  refine List.filter_eq_self.2 fun e he => ?_
  unfold Arbiter.queues at h
  simpa using List.any_eq_false.1 h e he

theorem plans_eq_false {p : Planner} {i : SlotId} (h : p.plans i = false) :
    p.plan.filter (fun w => decide (w.slot ≠ i)) = p.plan := by
  refine List.filter_eq_self.2 fun w hw => ?_
  unfold Planner.plans at h
  simpa using List.any_eq_false.1 h w hw

/-- A slot without a grant that waits for none is powered down beside the arbiter. -/
theorem dropBlocks_arbiter {i : SlotId} {s : State} (hgrant : (s.slot i).grant = false)
    (hqueue : s.arbiter.queues i = false) : (dropBlocks i s).arbiter = s.arbiter := by
  unfold dropBlocks
  dsimp only
  rw [queues_eq_false hqueue, hgrant]
  simp

/-- What follows a power-down: the room queue is walked where a window has left the plan, and the power queue examined
where power or a place in it has been given up (05 R93, 08 R145). -/
theorem moves_dropped {i : SlotId} {g : Slot → Slot} {before s t : State} (h : Micro s t) (hc : Changes i g (dropBlocks i s) t)
    (hgrant : (before.slot i).grant = (s.slot i).grant)
    (harbiter : before.arbiter = s.arbiter) (hplanner : before.planner = s.planner) : Moves s (followOn i before t) := by
  have hplan : before.planner.plans i = true ∨ (s.roomBlocked → t.roomBlocked) := by
    by_cases hplans : before.planner.plans i = true
    · exact .inl hplans
    · refine .inr fun hb => ?_
      rw [Bool.not_eq_true, hplanner] at hplans
      have hp := hc.blocks.planner
      refine hb.congr ?_ (by rw [hp]; rfl) (fun j hj => ?_) fun j hj => ?_
      · rw [hp]; exact plans_eq_false hplans
      · rw [hp] at hj; exact (List.mem_filter.1 hj).1
      · rw [hp] at hj
        exact (hc.others j (by simpa using (List.mem_filter.1 hj).2)).screening
  have hroom : s.queuesSound → PlanAccounted s → s.roomBlocked →
      (if before.planner.plans i then walkRoom t else t).roomBlocked := fun _ _ hb => by
    split
    · exact walkRoom_blocked t
    · rename_i hn
      exact hplan.resolve_left hn hb
  have hsmalls : Smalls s (if before.planner.plans i then walkRoom t else t) := by
    split
    · exact h.smalls.tail (.walks t)
    · exact h.smalls
  unfold followOn
  dsimp only
  split
  · exact hsmalls.examined hroom
  · rename_i hstill
    rw [hgrant, harbiter, Bool.or_eq_true, not_or, Bool.not_eq_true, Bool.not_eq_true] at hstill
    refine .single ⟨hsmalls, fun _ hb => ?_, hroom⟩
    have harb : (if before.planner.plans i then walkRoom t else t).arbiter = s.arbiter := by
      have ht : t.arbiter = s.arbiter := hc.blocks.arbiter.trans (dropBlocks_arbiter hstill.1 hstill.2)
      split
      · rw [walkRoom_arbiter, ht]
      · exact ht
    rw [harb]
    exact hb

/-- The power-down actions with a transition, timers of its state started in the same event. -/
theorem moves_powerOff_timed {i : SlotId} {st : SlotState} {r : Reason} {s : State} (a : Nat) (T : StateTimers)
    (hto : st.parkable = false) (hallow : (s.slot i).AllowanceFits a st) (hfits : T.Fits st) :
    Moves s ((powerOff i st r (s.updSlot i fun c => { c with allowance := a })).updSlot i
      fun c => { c with timers := T }) := by
  have hdown := poweredDown_powerDown i (s.updSlot i fun c => { c with allowance := a })
  unfold powerOff
  rw [← followOn_updSlot _ (by rw [transition_planner]; exact hdown.roomQueue)
    (by rw [transition_arbiter]; exact hdown.powerQueue)]
  have hdrop := Micro.drops i st r a T hto hallow hfits (changes_updSlot i _ _)
  have hbefore : ((s.updSlot i fun c => { c with allowance := a }).slot i).grant = (s.slot i).grant := by
    rw [slot_updSlot_self]
  exact moves_dropped hdrop (changes_drop (changes_updSlot i _ _)) hbefore rfl rfl

theorem powerOff_idle (i : SlotId) (st : SlotState) (r : Reason) (s : State) :
    (powerOff i st r s).updSlot i (fun c => { c with timers := .idle }) = powerOff i st r s := by
  refine (updSlot_congr (g := fun c => c) _ _ ?_).trans (setSlot_slot _ i)
  rw [slot_powerOff]
  rfl

theorem moves_powerOff_allowance {i : SlotId} {st : SlotState} {r : Reason} {s : State} (a : Nat)
    (hto : st.parkable = false) (hallow : (s.slot i).AllowanceFits a st) (htimed : st.timed = false) :
    Moves s (powerOff i st r (s.updSlot i fun c => { c with allowance := a })) := by
  rw [← powerOff_idle]
  exact moves_powerOff_timed a .idle hto hallow (idle_fits htimed)

theorem moves_powerOff {i : SlotId} {st : SlotState} {r : Reason} {s : State} (hto : st.parkable = false)
    (hallow : (s.slot i).AllowanceFits (s.slot i).allowance st) (htimed : st.timed = false) :
    Moves s (powerOff i st r s) := by
  have h := moves_powerOff_allowance (r := r) (s.slot i).allowance hto hallow htimed
  rwa [updSlot_id] at h

theorem moves_takeFault {i : SlotId} (code : Reason) {s : State} (hb : (s.slot i).state ≠ .barred)
    (hd : (s.slot i).state ≠ .disabled) : Moves s (takeFault i code s) := by
  have hcount : Moves s (s.updSlot i fun c => { c with faultCount := saturate 255 c.faultCount }) :=
    (softEq_updSlot (Slot.alike_soft ..)).moves
  generalize hu : (s.updSlot i fun c => { c with faultCount := saturate 255 c.faultCount }) = u at hcount
  have hallow : ∀ st, st ≠ .barred → (u.slot i).AllowanceFits (u.slot i).allowance st := fun st hst =>
    Slot.allowanceFits_stands (by rw [← hu, slot_updSlot_self]; exact hb) (by rw [← hu, slot_updSlot_self]; exact hd) hst
  unfold takeFault
  rw [hu]
  dsimp only
  split
  · have h := moves_powerOff_timed (r := code) (u.slot i).allowance
      { StateTimers.idle with cooldown := some s.times.cooldown } rfl (hallow .cooldown (by decide))
      (by simp [StateTimers.Fits, StateTimers.idle])
    rw [updSlot_id] at h
    rw [updSlot_congr _ _ (g := fun c =>
      { c with timers := { StateTimers.idle with cooldown := some s.times.cooldown } })]
    · exact hcount.trans h
    · rw [slot_powerOff]; rfl
  · exact hcount.trans (moves_powerOff rfl (hallow .faulted (by decide)) rfl)

end Sys2Proof.Machine
end

section
/-!
PROOF. The entries of a slot's states, and what a slot makes of a job completion, as moves.
-/
namespace Sys2Proof.Machine

theorem SoftEq.state {s t : State} (h : SoftEq s t) (i : SlotId) : (t.slot i).state = (s.slot i).state := (h.slots i).state

/-! ### Entries of states -/

theorem moves_toIdentifying {i : SlotId} {r : Reason} {s : State} (hfrom : (s.slot i).state.parkable = false)
    (hallow : (s.slot i).AllowanceFits (s.slot i).allowance .identifying) : Moves s (toIdentifying i r s) :=
  (moves_transition hfrom rfl hallow rfl).trans ((softEq_withdrawJob i _).trans (softEq_issueJob i _ _)).moves

theorem moves_toPowerWait {i : SlotId} {s : State} (hfrom : (s.slot i).state.parkable = false)
    (hb : (s.slot i).state ≠ .barred) (hd : (s.slot i).state ≠ .disabled) : Moves s (toPowerWait i s) := by
  unfold toPowerWait
  dsimp only
  split
  · exact moves_transition hfrom rfl (Slot.allowanceFits_stands hb hd (by decide)) rfl
  · rename_i hp
    have h := (Micro.waits i ⟨hfrom, hb, hd⟩ (Nat.not_lt.1 hp)).smalls
    have hc := changes_wait i s
    rw [← transition_arbiter i .powerWait .none s] at h hc
    refine h.examined fun _ _ hblocked => ?_
    exact hblocked.congr (by rw [hc.blocks.planner]) (by rw [hc.blocks.planner]) (fun j hj => hc.blocks.planner ▸ hj)
      fun j _ => hc.screening rfl j

theorem moves_toConsentWait {i : SlotId} {s : State} (hfrom : (s.slot i).state.parkable = false)
    (hb : (s.slot i).state ≠ .barred) (hd : (s.slot i).state ≠ .disabled) : Moves s (toConsentWait i s) := by
  have hT : ({ StateTimers.idle with consent := some s.times.consentTimeout } : StateTimers).Fits .consentWait := by
    simp [StateTimers.Fits, StateTimers.idle]
  have henter := changes_transition i .consentWait .none s
  have h : Changes i (fun c => { ({ c with allowance := (s.slot i).allowance, screening := (s.slot i).screening } : Slot).enter
      .consentWait .none with timers := { StateTimers.idle with consent := some s.times.consentTimeout } }) s
      (toConsentWait i s) := by
    refine ⟨henter.blocks.trans ⟨rfl, rfl, rfl, rfl, rfl, rfl⟩, fun j hj => ?_, .of_eq ?_⟩
    · unfold toConsentWait
      rw [slot_updSlot_ne _ _ hj]
      exact henter.others j hj
    · unfold toConsentWait
      rw [slot_updSlot_self, slot_transition_self]
      rfl
  exact (Micro.enters i .consentWait .none _ (s.slot i).screening _ hfrom rfl
    (Slot.allowanceFits_stands hb hd (by decide)) hT h).calm_slot h (fun _ => rfl) rfl rfl fun _ => rfl

theorem moves_toUnlocking {i : SlotId} {s : State} (hfrom : (s.slot i).state.parkable = false)
    (hb : (s.slot i).state ≠ .barred) (hd : (s.slot i).state ≠ .disabled) : Moves s (toUnlocking i s) :=
  (moves_transition hfrom rfl (Slot.allowanceFits_stands hb hd (by decide)) rfl).trans
    ((softEq_updSlot (Slot.alike_soft ..)).trans (softEq_issueJob i _ _)).moves

theorem moves_admitCard {i : SlotId} {s : State} (hfrom : (s.slot i).state.parkable = false)
    (hb : (s.slot i).state ≠ .barred) (hd : (s.slot i).state ≠ .disabled) : Moves s (admitCard i s) := by
  unfold admitCard
  split
  · exact moves_toUnlocking hfrom hb hd
  · exact moves_toPowerWait hfrom hb hd

/-- Where the contacts call for, with the allowance as it stands. -/
theorem moves_toContactState {i : SlotId} {s : State} (hfrom : (s.slot i).state.parkable = false) :
    Moves s (toContactState i s) := by
  have hallow : (s.slot i).AllowanceFits (s.slot i).allowance (contactState (s.slot i)) := by
    refine ⟨.inl (Nat.le_refl _), .inl ?_⟩
    unfold contactState
    split
    · simp [*]
    · split
      · simp [*]
      · split <;> simp [*]
  have hto : (contactState (s.slot i)).parkable = false ∧ (contactState (s.slot i)).timed = false := by
    unfold contactState
    split
    · exact ⟨rfl, rfl⟩
    · split
      · exact ⟨rfl, rfl⟩
      · split <;> exact ⟨rfl, rfl⟩
  unfold toContactState
  split
  · rename_i hc
    rw [hc] at hallow
    exact moves_toIdentifying hfrom hallow
  · exact moves_transition hfrom hto.1 hallow hto.2

theorem moves_pollStatus {i : SlotId} {s : State} (hst : (s.slot i).state = .readyWait) : Moves s (pollStatus i s) := by
  have hT : (s.slot i).timersFollow →
      ({ (s.slot i).timers with poll := some Config.pollInterval } : StateTimers).Fits (s.slot i).state := by
    intro ⟨consent, ramp, resetHold, ready, cooldown, _⟩
    exact ⟨consent, ramp, resetHold, ready, cooldown, fun _ => hst⟩
  have h : Changes i (fun c => { c with timers := { (s.slot i).timers with poll := some Config.pollInterval } }) s
      (s.updSlot i fun c => { c with pollDue := false, timers := { c.timers with poll := some Config.pollInterval } }) :=
    changes_set ⟨rfl, rfl, rfl, rfl, rfl, rfl⟩ rfl (Slot.alike_soft ..)
  exact ((Micro.times i _ hT h).calm_slot h (fun _ => rfl) rfl rfl fun _ => rfl).trans (softEq_issueJob i _ _).moves

/-! ### Insertion and transfer -/

theorem moves_insertWindow {i : SlotId} {s : State}
    (hst : (s.slot i).state = .readyWait ∨ (s.slot i).state = .configuring ∧ (s.slot i).pin = none) :
    Moves s (insertWindow i s) := by
  unfold insertWindow
  split
  · rename_i plan hplan
    have hc := changes_join i plan s
    refine (Micro.joins i plan hst hplan).calm hc.blocks.arbiter fun _ hb j hj => ?_
    have hp := hc.blocks.planner
    rw [hp] at hj
    exact tryPlace_none_placed (hb j hj) hplan (by rw [hp]) (by rw [hp]) (hc.screening rfl j)
  · rename_i hnone
    have hc := changes_room i s
    refine (Micro.rooms i hst).calm hc.blocks.arbiter fun _ hb j hj => ?_
    have hp := hc.blocks.planner
    rw [tryPlace_congr (by rw [hp]) (by rw [hp]) (hc.screening rfl j)]
    rw [hp] at hj
    rcases List.mem_append.1 hj with hj | hj
    · exact hb j hj
    · rw [List.mem_singleton.1 hj]; exact hnone

theorem softEq_nextBlock (i : SlotId) (n : Fin 8) (s : State) : SoftEq s (nextBlock i n s) :=
  softEq_of_slots ⟨by simp, by simp, by simp, by simp, by simp, by simp⟩ (by simp)

/-- The start of a transfer pins the set, as far as the safety properties speak of it. -/
theorem changes_startTransfer (i : SlotId) (n : Fin 8) (s : State) : Changes i (fun c => { c with pin := some n })
    { s with sets := s.sets.set n { s.sets[n] with pins := s.sets[n].pins + 1 } } (startTransfer i n s) := by
  have hpin : Changes i (fun c => { c with pin := some n })
      { s with sets := s.sets.set n { s.sets[n] with pins := s.sets[n].pins + 1 } }
      { s.updSlot i (fun c => { c with pin := some n, transferCount := 0 }) with
        sets := s.sets.set n { s.sets[n] with pins := s.sets[n].pins + 1 } } :=
    changes_set ⟨rfl, rfl, rfl, rfl, rfl, rfl⟩ rfl (Slot.alike_soft ..)
  unfold startTransfer
  dsimp only
  split
  · exact (hpin.then_soft (softEq_writeReason i _ _)).then_soft (softEq_nextBlock i n _)
  · exact hpin.then_soft (softEq_nextBlock i n _)

theorem moves_examineSet {i : SlotId} {n : Fin 8} {s : State} (hst : (s.slot i).state = .configuring)
    (hpin : (s.slot i).pin = none) : Moves s (examineSet i n s) := by
  unfold examineSet
  split
  · rename_i hready
    split
    · exact moves_takeFault _ (by rw [hst]; decide) (by rw [hst]; decide)
    · have hc := changes_startTransfer i n s
      exact (Micro.pins i n hst hpin hready hc).calm_slot hc (fun _ => rfl) rfl rfl fun _ => rfl
  · split
    · exact .refl
    · exact (softEq_writeReason i _ s).moves

/-- What an examination of the set is that comes with the entry of CONFIGURING. -/
theorem moves_configure {i : SlotId} (n : Fin 8) {s : State} (hst : (s.slot i).state = .readyWait) :
    Moves s (examineSet i n (transition i .configuring .none s)) := by
  have hc := (changes_transition i .configuring .none s).congr
    (h := fun c => { c.enter .configuring .none with timers := .idle }) rfl
  have henter : Moves s (transition i .configuring .none s) :=
    (Micro.advances i .configuring .none .idle (.inr ⟨hst, rfl⟩) (idle_fits rfl) hc).calm_slot hc (fun _ => rfl) rfl rfl
      fun _ => rfl
  have hstate : ((transition i .configuring .none s).slot i).state = .configuring := by
    rw [slot_transition_self]; rfl
  unfold examineSet
  split
  · rename_i hready
    split
    · exact henter.trans (moves_takeFault _ (by rw [hstate]; decide) (by rw [hstate]; decide))
    · rw [transition_sets] at hready
      obtain ⟨hblocks, hothers, hself⟩ := changes_startTransfer i n (transition i .configuring .none s)
      obtain ⟨hb', hs', hi'⟩ := changes_transition i .configuring .none s
      have hpin : Changes i (fun c => { c.enter .configuring .none with pin := some n })
          { s with sets := s.sets.set n { s.sets[n] with pins := s.sets[n].pins + 1 } }
          (startTransfer i n (transition i .configuring .none s)) := by
        refine ⟨SameBlocks.trans ⟨?_, ?_, ?_, ?_, ?_, ?_⟩ hblocks, fun j hj => (hs' j hj).trans (hothers j hj), ?_⟩
        all_goals try simp
        have he : (transition i .configuring .none s).slot i = (s.slot i).enter .configuring .none :=
          slot_transition_self ..
        change ({ (transition i .configuring .none s).slot i with pin := some n } : Slot).Alike _ at hself
        rw [he] at hself
        exact hself
      exact (Micro.configures i n .none hst hready hpin).calm_slot hpin (fun _ => rfl) rfl rfl fun _ => rfl
  · split
    · exact henter
    · exact henter.trans (softEq_writeReason i _ _).moves

theorem moves_endTransfer (i : SlotId) (k : Nat) (s : State) : Moves s (endTransfer i k s) := by
  unfold endTransfer
  cases hpin : (s.slot i).pin with
  | none => exact .refl
  | some n =>
    have h : Changes i (fun c => { c with pin := none })
        { s with sets := s.sets.set n { s.sets[n] with pins := s.sets[n].pins - 1 } }
        { s.updSlot i (fun c =>
            { c with wordsWritten := k, residual := s.sets[n].length - k, pin := none }) with
          sets := s.sets.set n { s.sets[n] with pins := s.sets[n].pins - 1 } } :=
      changes_set ⟨rfl, rfl, rfl, rfl, rfl, rfl⟩ rfl (Slot.alike_soft ..)
    exact (Micro.unpins i n hpin h).calm_slot h (fun _ => rfl) rfl rfl fun _ => rfl

theorem endTransfer_state (i : SlotId) (k : Nat) (s : State) :
    ((endTransfer i k s).slot i).state = (s.slot i).state ∧ ((endTransfer i k s).slot i).pin = none := by
  rw [endTransfer_slot]
  split <;> simp [*]

end Sys2Proof.Machine
end

section
/-!
PROOF. What a slot makes of a job completion, as moves.
-/
namespace Sys2Proof.Machine

/-! ### The screening step -/

theorem moves_setScreening {i : SlotId} (r : Screening) {s : State} (hst : (s.slot i).state.parkable = false) :
    Moves s (setScreening i r s) := by
  have hc : Changes i (fun c => { c with allowance := (s.slot i).allowance, screening := r }) s (setScreening i r s) :=
    (changes_updSlot i _ s).congr rfl
  exact (Micro.amends i (s.slot i).allowance r hst (.inl rfl) hc).calm_slot hc (fun _ => rfl) rfl rfl
    fun hw => by rw [hw] at hst; cases hst

theorem setScreening_state (i : SlotId) (r : Screening) (s : State) :
    ((setScreening i r s).slot i).state = (s.slot i).state := by
  unfold setScreening; rw [slot_updSlot_self]

/-- A transition out of IDENTIFYING or UNLOCKING to REFUSED. -/
theorem moves_refused {i : SlotId} {r : Reason} {s : State}
    (hst : (s.slot i).state = .identifying ∨ (s.slot i).state = .unlocking ∨ (s.slot i).state = .consentWait) :
    Moves s (transition i .refused r s) := by
  have hquiet : (s.slot i).state.parkable = false ∧ (s.slot i).state ≠ .barred ∧ (s.slot i).state ≠ .disabled := by
    rcases hst with h | h | h <;> rw [h] <;> decide
  exact moves_transition hquiet.1 rfl (Slot.allowanceFits_stands hquiet.2.1 hquiet.2.2 (by decide)) rfl

theorem moves_refuseCard {i : SlotId} {reason : Reason} (r : Screening) {s : State}
    (hst : (s.slot i).state = .identifying) : Moves s (refuseCard i reason r s) :=
  (moves_setScreening r (by rw [hst]; rfl)).trans (moves_refused (.inl (by rw [setScreening_state, hst])))

theorem moves_screenTiming {i : SlotId} (ident : List Byte) (action : PolicyAction) (results : Screening) {s : State}
    (hst : (s.slot i).state = .identifying) : Moves s (screenTiming i ident action results s) := by
  unfold screenTiming
  split
  · exact moves_refuseCard _ hst
  · rename_i d flags _
    dsimp only
    generalize hfull : ({ results with window := some d, clamps := flags } : Screening) = full
    have hset : Moves s (setScreening i full s) := moves_setScreening _ (by rw [hst]; rfl)
    have hstate : ((setScreening i full s).slot i).state = .identifying := by rw [setScreening_state, hst]
    split
    · exact moves_refuseCard _ hst
    · split
      · exact moves_refuseCard _ hst
      · split
        · exact hset.trans (moves_toConsentWait (by rw [hstate]; rfl) (by rw [hstate]; decide) (by rw [hstate]; decide))
        · exact hset.trans (moves_admitCard (by rw [hstate]; rfl) (by rw [hstate]; decide) (by rw [hstate]; decide))

theorem moves_takeInIdentifying {i : SlotId} (c : Completion) {s : State} (hst : (s.slot i).state = .identifying) :
    Moves s (takeInIdentifying i c s) := by
  have hfault : ∀ code, Moves s (takeFault i code s) := fun code =>
    moves_takeFault code (by rw [hst]; decide) (by rw [hst]; decide)
  unfold takeInIdentifying
  split
  · split
    · unfold takeHeader
      split
      · exact ((softEq_updSlot (Slot.alike_soft ..)).trans (softEq_issueJob i _ _)).moves
      · exact moves_refused (.inl hst)
    · unfold takeBody
      dsimp only
      split
      · unfold screenCard
        split
        · exact moves_refuseCard _ hst
        · exact moves_screenTiming _ _ _ hst
      · exact moves_refused (.inl hst)
  · exact hfault _
  · exact hfault _
  · exact .refl

/-! ### The unlock walk -/

theorem moves_walkKeys {i : SlotId} {s : State} (hst : (s.slot i).state = .unlocking) : Moves s (walkKeys i s) := by
  unfold walkKeys
  split
  · exact ((softEq_updSlot (Slot.alike_soft ..)).trans (softEq_issueJob i _ _)).moves
  · exact moves_refused (.inr (.inl hst))

theorem moves_chargeDenial {i : SlotId} {s : State} (hst : (s.slot i).state = .unlocking) :
    Moves s (chargeDenial i s) := by
  have hcharge : s.updSlot i (fun c => { c with allowance := c.allowance - 1 }) =
      s.updSlot i fun c => { c with allowance := (s.slot i).allowance - 1 } := updSlot_congr _ _ rfl
  unfold chargeDenial
  dsimp only
  split
  · rename_i h
    rw [slot_updSlot_self] at h
    rw [hcharge]
    exact moves_powerOff_allowance _ rfl ⟨.inl (Nat.sub_le _ _), .inl ⟨fun _ => rfl, fun _ => h⟩⟩ rfl
  · rename_i h
    rw [slot_updSlot_self] at h
    have hc : Changes i (fun c => { c with allowance := (s.slot i).allowance - 1, screening := (s.slot i).screening }) s
        (s.updSlot i fun c => { c with allowance := c.allowance - 1 }) := (changes_updSlot i _ s).congr rfl
    have hamend : Moves s (s.updSlot i fun c => { c with allowance := c.allowance - 1 }) :=
      (Micro.amends i ((s.slot i).allowance - 1) (s.slot i).screening (by rw [hst]; rfl)
        (.inr ⟨h, Nat.sub_le _ _, by rw [hst]; decide⟩) hc).calm_slot hc (fun _ => rfl) rfl rfl fun _ => rfl
    exact hamend.trans (moves_walkKeys (by rw [slot_updSlot_self]; exact hst))

theorem moves_takeInUnlocking {i : SlotId} (c : Completion) {s : State} (hst : (s.slot i).state = .unlocking) :
    Moves s (takeInUnlocking i c s) := by
  have hwait : Moves s (toPowerWait i s) :=
    moves_toPowerWait (by rw [hst]; rfl) (by rw [hst]; decide) (by rw [hst]; decide)
  have hfault : ∀ code, Moves s (takeFault i code s) := fun code =>
    moves_takeFault code (by rw [hst]; decide) (by rw [hst]; decide)
  unfold takeInUnlocking
  split
  · split
    · exact moves_walkKeys hst
    · exact hwait
  · exact hwait
  · exact moves_chargeDenial hst
  · exact hfault _
  · exact hfault _
  · exact hfault _
  · exact hfault _
  · exact .refl

/-! ### The ready wait and the transfer -/

theorem moves_takeReady {i : SlotId} {s : State} (hst : (s.slot i).state = .readyWait) : Moves s (takeReady i s) := by
  have hfree := softEq_withdrawJob i s
  have hstate : ((withdrawJob i s).slot i).state = .readyWait := by rw [hfree.state, hst]
  unfold takeReady
  dsimp only
  split
  · exact hfree.moves.trans (moves_configure _ hstate)
  · exact hfree.moves.trans (moves_insertWindow (.inl hstate))

theorem moves_pollAgain {i : SlotId} {s : State} (hst : (s.slot i).state = .readyWait) : Moves s (pollAgain i s) := by
  unfold pollAgain
  split
  · exact moves_pollStatus hst
  · exact .refl

theorem moves_takeInReadyWait {i : SlotId} (c : Completion) {s : State} (hst : (s.slot i).state = .readyWait) :
    Moves s (takeInReadyWait i c s) := by
  unfold takeInReadyWait
  split
  · split
    · exact moves_takeReady hst
    · exact moves_pollAgain hst
  · exact moves_pollAgain hst
  · exact moves_pollAgain hst
  · exact .refl

theorem moves_takeInTransfer {i : SlotId} (n : Fin 8) (c : Completion) {s : State}
    (hst : (s.slot i).state = .configuring) : Moves s (takeInTransfer i n c s) := by
  have hended : Moves s (endCommit i n s) := moves_endTransfer i _ s
  obtain ⟨hstate, hpin⟩ : ((endCommit i n s).slot i).state = (s.slot i).state ∧ ((endCommit i n s).slot i).pin = none :=
    endTransfer_state i _ s
  rw [hst] at hstate
  have hfault : ∀ code, Moves (endCommit i n s) (takeFault i code (endCommit i n s)) := fun code =>
    moves_takeFault code (by rw [hstate]; decide) (by rw [hstate]; decide)
  have hfault' : ∀ code, Moves s (takeFault i code s) := fun code =>
    moves_takeFault code (by rw [hst]; decide) (by rw [hst]; decide)
  unfold takeInTransfer
  split
  · exact ((softEq_updSlot (Slot.alike_soft ..)).trans (softEq_nextBlock i n _)).moves
  · exact hended.trans (moves_insertWindow (.inr ⟨hstate, hpin⟩))
  · exact hended.trans (hfault _)
  · exact hended.trans (hfault _)
  · exact hended.trans (hfault _)
  · exact hfault' _
  · exact hfault' _
  · exact .refl

/-! ### Taking and catching up -/

theorem moves_takeCompletion (i : SlotId) (c : Completion) (s : State) : Moves s (takeCompletion i c s) := by
  unfold takeCompletion
  split
  · rename_i hst; exact moves_takeInIdentifying c hst
  · rename_i hst; exact moves_takeInUnlocking c hst
  · rename_i hst; exact moves_takeInReadyWait c hst
  · rename_i hst
    split
    · exact moves_takeInTransfer _ c hst
    · exact .refl
  all_goals exact .refl

theorem moves_transmit (s : State) : Moves s (transmit s) := (softEq_transmit s).moves

theorem moves_takeNextCompletion (i : SlotId) (s : State) : Moves s (takeNextCompletion i s) := by
  unfold takeNextCompletion
  split
  · exact ((softEq_updSlot (Slot.alike_soft ..)).moves.trans (moves_takeCompletion i _ _)).trans (moves_transmit _)
  · exact .refl

theorem moves_takeCompletions (i : SlotId) (n : Nat) : ∀ s : State, Moves s (takeCompletions i n s) := by
  induction n with
  | zero => exact fun _ => .refl
  | succ n ih => exact fun s => (moves_takeNextCompletion i s).trans (ih _)

theorem moves_catchUp (i : SlotId) (s : State) : Moves s (catchUp i s) := moves_takeCompletions i _ s

theorem moves_catchUpIf (withdraws : Bool) (i : SlotId) (s : State) : Moves s (catchUpIf withdraws i s) := by
  unfold catchUpIf
  split
  · exact moves_catchUp i s
  · exact .refl

/-- What a fold of moves over the slots makes is moves. -/
theorem moves_foldl {f : State → SlotId → State} (h : ∀ s i, Moves s (f s i)) (l : List SlotId) :
    ∀ s, Moves s (l.foldl f s) := by
  induction l with
  | nil => exact fun _ => .refl
  | cons i l ih => exact fun s => (h s i).trans (ih _)

theorem moves_catchUpAll (s : State) : Moves s (catchUpAll s) :=
  moves_foldl (fun s i => moves_takeCompletions i _ s) _ s

end Sys2Proof.Machine
end

section
/-!
PROOF. Moves leave the contacts of every slot as they are.
-/
namespace Sys2Proof.Machine

/-- The contacts of a slot, raw and debounced, with their debounce timers. -/
def Slot.contactFields (c : Slot) : Bool × Bool × Bool × Bool × Option Nat × Option Nat :=
  (c.early, c.late, c.earlyRaw, c.lateRaw, c.debounceEarly, c.debounceLate)

theorem Slot.Alike.contactFields {c d : Slot} (h : c.Alike d) : d.contactFields = c.contactFields := by
  obtain ⟨he, hl, her, hlr, hde, hdl⟩ := h.contacts
  simp [Slot.contactFields, *]

/-- Two states whose slots agree on their contacts. -/
def SameContacts (s t : State) : Prop := ∀ i, (t.slot i).contactFields = (s.slot i).contactFields

theorem SameContacts.trans {a b c : State} (h1 : SameContacts a b) (h2 : SameContacts b c) : SameContacts a c :=
  fun i => (h2 i).trans (h1 i)

theorem Changes.sameContacts {i : SlotId} {g : Slot → Slot} {u t : State} (h : Changes i g u t)
    (hg : ∀ c, (g c).contactFields = c.contactFields) : SameContacts u t := by
  intro j
  by_cases hj : j = i
  · subst hj; exact h.self.contactFields.trans (hg _)
  · exact (h.others j hj).contactFields

theorem sameContacts_transition (i : SlotId) (st : SlotState) (r : Reason) (s : State) :
    SameContacts s (transition i st r s) :=
  (changes_transition i st r s).sameContacts fun _ => rfl

theorem sameContacts_allowance (i : SlotId) (a : Nat) (s : State) :
    SameContacts s (s.updSlot i fun c => { c with allowance := a }) :=
  (changes_updSlot i _ s).sameContacts fun _ => rfl

theorem sameContacts_powerDown (i : SlotId) (s : State) : SameContacts s (powerDown i s) := by
  intro j
  by_cases hj : j = i
  · subst hj
    obtain ⟨q, hq⟩ := powerDown_slot j s
    rw [hq]; rfl
  · rw [slot_powerDown_ne _ _ hj]

theorem sameContacts_grantPower (e : PowerEntry) (rest : List PowerEntry) (s : State) :
    SameContacts s (grantPower e rest s) := by
  intro j
  by_cases hj : j = e.slot
  · subst hj
    unfold grantPower
    dsimp only
    rw [slot_updSlot_self, slot_transition_self]
    rfl
  · rw [slot_grantPower_ne _ _ _ hj]

theorem sameContacts_walkFrom (q : List SlotId) : ∀ s, SameContacts s (walkFrom q s) := by
  induction q with
  | nil => exact fun _ _ => rfl
  | cons i q ih =>
    intro s
    unfold walkFrom
    split
    · rename_i plan _
      have hjoin : SameContacts s (joinPlan i plan (leaveRoom i s)) := sameContacts_transition _ _ _ _
      exact hjoin.trans (ih _)
    · exact ih s

theorem sameContacts_refuseQueued (q : List PowerEntry) : ∀ s, SameContacts s (refuseQueued q s) := by
  induction q with
  | nil => exact fun _ _ => rfl
  | cons e q ih =>
    intro s
    unfold refuseQueued
    split
    · exact ((sameContacts_powerDown e.slot s).trans (sameContacts_transition _ _ _ _)).trans (ih _)
    · exact ih s

theorem Micro.sameContacts {s t : State} (h : Micro s t) : SameContacts s t := by
  cases h with
  | soft h => exact fun j => (h.slots j).contactFields
  | enters i st r a results T _ _ _ _ h => exact h.sameContacts fun _ => rfl
  | amends i a results _ _ h => exact h.sameContacts fun _ => rfl
  | drops i st r a T _ _ _ h =>
    have hdown : SameContacts s (powerDown i (s.updSlot i fun c => { c with allowance := a })) :=
      (sameContacts_allowance i a s).trans (sameContacts_powerDown i _)
    have htimed := h.sameContacts fun _ => rfl
    exact (hdown.trans (sameContacts_transition i st r _)).trans htimed
  | grants e rest _ _ _ => exact sameContacts_grantPower e rest s
  | places i plan _ _ => exact sameContacts_transition _ _ _ _
  | waits i _ _ => exact sameContacts_transition _ _ _ _
  | ramps i T _ _ h => exact h.sameContacts fun _ => rfl
  | advances i st r T _ _ h => exact h.sameContacts fun _ => rfl
  | times i T _ h => exact h.sameContacts fun _ => rfl
  | pins i n _ _ _ h => exact h.sameContacts fun _ => rfl
  | configures i n r _ _ h => exact h.sameContacts fun _ => rfl
  | unpins i n _ h => exact h.sameContacts fun _ => rfl
  | joins i plan _ _ => exact sameContacts_transition _ _ _ _
  | rooms i _ => exact sameContacts_transition _ _ _ _
  | runs i _ h => exact h.sameContacts fun _ => rfl
  | power v _ _ =>
    intro j
    unfold recomputeThresholds
    rw [slot_mapSlots]; rfl
  | cycle v _ _ _ _ _ _ _ _ _ _ h => exact fun j => (h.slots j).contactFields
  | sets h _ => exact fun j => (h.slots j).contactFields
  | sequencer h _ _ => exact fun j => (h.slots j).contactFields

theorem Smalls.sameContacts {s t : State} (h : Smalls s t) : SameContacts s t := by
  induction h with
  | refl => exact fun _ => rfl
  | tail _ h ih =>
    refine ih.trans ?_
    cases h with
    | micro h => exact h.sameContacts
    | walks => exact sameContacts_walkFrom _ _
    | refuses => exact sameContacts_refuseQueued _ _

theorem Moves.sameContacts {s t : State} (h : Moves s t) : SameContacts s t := h.smalls.sameContacts

end Sys2Proof.Machine
end

section
/-!
PROOF. The cycle sequencer's operations: laying out a plan, adoption and its reports, the cycle start (08).
-/
namespace Sys2Proof.Machine

/-! ### Laying out (08 R141) -/

theorem layOut_eq (plan : List PlanWindow) : ∀ start, layOut start plan = plan.zipIdx.map fun p =>
    { slot := p.1.slot, rank := p.1.rank, start := start + ((plan.take p.2).map fun w => w.window.length).sum,
      window := p.1.window, muted := false } := by
  induction plan with
  | nil => exact fun _ => rfl
  | cons w plan ih =>
    intro start
    rw [layOut, ih, List.zipIdx_cons, List.map_cons, List.zipIdx_succ, List.map_map]
    simp [Function.comp_def, Nat.add_assoc]

theorem layOut_leadGap (plan : List PlanWindow) : layOut Config.leadGap plan = laidOut plan := layOut_eq plan _

theorem layOut_slots (plan : List PlanWindow) : ∀ start,
    (layOut start plan).map ActiveWindow.slot = plan.map PlanWindow.slot := by
  induction plan with
  | nil => exact fun _ => rfl
  | cons w plan ih => exact fun start => congrArg (w.slot :: ·) (ih _)

theorem countP_layOut (i : SlotId) (start : Nat) (plan : List PlanWindow) :
    (layOut start plan).countP (fun w => decide (w.slot = i)) = plan.countP fun w => decide (w.slot = i) := by
  have h := congrArg (List.countP fun j => decide (j = i)) (layOut_slots plan start)
  rwa [List.countP_map, List.countP_map] at h

theorem plansDiffer_iff (s : State) :
    plansDiffer (layOut Config.leadGap s.planner.plan) s.sequencer.active = true ↔ s.plansChanged := by
  rw [layOut_leadGap]
  simp [plansDiffer, State.plansChanged]

/-! ### Adoption (08 R146) -/

theorem reportAdoption_rest (old new : List ActiveWindow) : ∀ s : State,
    { reportAdoption old new s with slots := s.slots } = s := by
  induction new with
  | nil => exact fun _ => rfl
  | cons w new ih =>
    intro s
    rw [reportAdoption]
    split
    · exact ih s
    · exact congrArg (fun t : State => { t with slots := s.slots }) (ih _)

theorem reportAdoption_slot (old new : List ActiveWindow) (i : SlotId) : ∀ s : State,
    (reportAdoption old new s).slot i = { s.slot i with inbox := { (s.slot i).inbox with
      adoptionReports := (s.slot i).inbox.adoptionReports +
        if runsIn old i then 0 else new.countP fun w => decide (w.slot = i) } } := by
  induction new with
  | nil => intro s; simp [reportAdoption]
  | cons w new ih =>
    intro s
    rw [reportAdoption, ih, List.countP_cons]
    by_cases hw : w.slot = i
    · subst hw
      by_cases hr : runsIn old w.slot = true
      · simp [hr]
      · simp only [hr, Bool.false_eq_true, if_false, slot_updSlot_self]
        simp
        omega
    · by_cases hr : runsIn old w.slot = true
      · simp [hr, hw]
      · simp only [hr, Bool.false_eq_true, if_false, slot_updSlot_ne _ _ (Ne.symm hw)]
        simp [hw]

theorem startCycle_kept {s : State} (h : ¬ s.plansChanged) : startCycle s = { s with sequencer := { s.sequencer with
    cycleCount := s.sequencer.cycleCount + 1, length := s.planner.settings.length,
    tolerance := s.planner.settings.tolerance, markLow := false, next := some 0, run := none } } := by
  unfold startCycle adoptPlan
  exact if_neg fun hd => h ((plansDiffer_iff s).1 hd)

theorem startCycle_adopted {s : State} (h : s.plansChanged) : startCycle s =
    reportAdoption s.sequencer.active (layOut Config.leadGap s.planner.plan)
      { s with sequencer := { s.sequencer with
          cycleCount := s.sequencer.cycleCount + 1, length := s.planner.settings.length,
          tolerance := s.planner.settings.tolerance, markLow := false, next := some 0, run := none,
          active := layOut Config.leadGap s.planner.plan } } := by
  unfold startCycle adoptPlan
  exact if_pos ((plansDiffer_iff s).2 h)

/-- A cycle start does what 08 R146 and R153 say, with nothing said to the host. -/
theorem startsCycle_startCycle (s : State) :
    StartsCycle s.sequencer.state s.sequencer.earlyCount s (startCycle s) ∧ (startCycle s).link = s.link := by
  by_cases h : s.plansChanged
  · have hrest := reportAdoption_rest s.sequencer.active (layOut Config.leadGap s.planner.plan)
      { s with sequencer := { s.sequencer with
          cycleCount := s.sequencer.cycleCount + 1, length := s.planner.settings.length,
          tolerance := s.planner.settings.tolerance, markLow := false, next := some 0, run := none,
          active := layOut Config.leadGap s.planner.plan } }
    rw [← startCycle_adopted h] at hrest
    have hlink : (startCycle s).link = s.link := (congrArg State.link hrest :)
    have hseq := congrArg State.sequencer hrest
    refine ⟨⟨⟨_, hseq⟩, fun _ => ?_, fun hn => absurd h hn, fun _ i => ?_, ?_, ?_⟩, hlink⟩
    · exact (congrArg Sequencer.active hseq).trans (layOut_leadGap _)
    · rw [startCycle_adopted h, reportAdoption_slot, countP_layOut]
      rfl
    · have hback := congrArg (fun t : State => { t with sequencer := s.sequencer, link := s.link }) hrest
      exact hback
    · rw [hlink]
  · rw [startCycle_kept h]
    exact ⟨⟨⟨_, rfl⟩, fun hc => absurd hc h, fun _ => ⟨rfl, rfl⟩, fun hc => absurd hc h, rfl, rfl⟩, rfl⟩

/-! ### The cycle notice (08 R159) -/

theorem postedCycle_postCycle (cause : CycleCause) (s : State) : (postCycle cause s).postedCycle cause :=
  mem_placeNotice_self _ _

theorem StartsCycle.post {state : SequencerState} {early : Nat} {s t : State} (h : StartsCycle state early s t)
    (cause : CycleCause) : StartsCycle state early s (postCycle cause t) where
  sequencer := h.sequencer
  adopted := h.adopted
  kept := h.kept
  reported := h.reported
  rest := h.rest
  link := h.link

/-- The cycle start of a sequencer whose state and EARLY count the event has just written. -/
theorem StartsCycle.of_written {s t : State} (state : SequencerState) (early : Nat)
    (h : StartsCycle state early
      { s with sequencer := { s.sequencer with state := state, earlyCount := early } } t) :
    StartsCycle state early s t where
  sequencer := h.sequencer
  adopted := h.adopted
  kept := h.kept
  reported := h.reported
  rest := by
    have hback := congrArg (fun u : State => { u with sequencer := s.sequencer }) h.rest
    exact hback
  link := h.link

theorem startsCycle_written (state : SequencerState) (early : Nat) (s : State) : StartsCycle state early s
    (startCycle { s with sequencer := { s.sequencer with state := state, earlyCount := early } }) :=
  .of_written state early
    (startsCycle_startCycle { s with sequencer := { s.sequencer with state := state, earlyCount := early } }).1

end Sys2Proof.Machine
end

section
/-!
PROOF. Marks: the cycle starts of MASTER mode and the pulses that FOLLOWER mode judges (08 R149 to R153, R159).
-/
namespace Sys2Proof.Machine

/-- Settles O51. -/
theorem masterMarksStartCycles : Obligations.MasterMarksStartCycles := by
  intro s hlive
  refine ⟨fun hrun hnext => ?_, fun hrun hlow => ?_, fun hout => ?_, fun hout => ?_⟩
  · exact (whenLive_live hlive).trans (congrArg _ (if_pos ⟨hrun, hnext⟩))
  · obtain ⟨hstart, hlink⟩ := startsCycle_startCycle s
    rw [hrun] at hstart
    exact ⟨_, (whenLive_live hlive).trans (congrArg _ (if_pos ⟨hrun, hlow⟩)), hstart, hlink⟩
  · refine (whenLive_live hlive).trans (congrArg _ (if_neg ?_))
    rintro ⟨hrun, hnext⟩
    rcases hout with h | h
    · exact h hrun
    · rw [h] at hnext; cases hnext
  · refine (whenLive_live hlive).trans (congrArg _ (if_neg ?_))
    rintro ⟨hrun, hlow⟩
    rcases hout with h | h
    · exact h hrun
    · rw [h] at hlow; cases hlow

/-! ### FOLLOWER mode -/

theorem follows_iff (q : SequencerState) : q.follows = true ↔ q = .seeking ∨ q = .locked ∨ q = .suspended := by
  cases q <;> simp [SequencerState.follows]

theorem endPulse_unwatched {width sinceStart : Nat} {s : State} (h : s.sequencer.state.follows = false) :
    endPulse width sinceStart s = s := by
  unfold endPulse; rw [h]; rfl

theorem endPulse_taken {width sinceStart : Nat} {s : State} (h : s.sequencer.state.follows = true)
    (hlong : s.sequencer.longPulse = true) :
    endPulse width sinceStart s = { s with sequencer := { s.sequencer with longPulse := false } } := by
  unfold endPulse; rw [h, hlong]; rfl

/-- A pulse not yet taken is judged by its width alone (08 R150). -/
theorem endPulse_fresh {width sinceStart : Nat} {s : State} (h : s.sequencer.state.follows = true)
    (hlong : s.sequencer.longPulse = false) : endPulse width sinceStart s =
      if width < 5 then s else if width < 40 then takeIllegal s else if width ≤ 60 then takeMark sinceStart s else s := by
  unfold endPulse; rw [h, hlong]; rfl

theorem longPulse_taken {s : State} (h : s.sequencer.state.follows = false ∨ s.sequencer.longPulse = true) :
    longPulse s = s := by
  refine if_neg ?_
  rintro ⟨hf, hl⟩
  rcases h with h | h
  · rw [h] at hf; cases hf
  · rw [h] at hl; cases hl

theorem longPulse_fresh {s : State} (h : s.sequencer.state.follows = true) (hlong : s.sequencer.longPulse = false) :
    longPulse s = takeIllegal { s with sequencer := { s.sequencer with longPulse := true } } :=
  if_pos ⟨h, hlong⟩

/-- What an ILLEGAL pulse comes to before the transmitter's choice (08 R152). -/
def countIllegal (s : State) : State :=
  postCycle .illegal
    { s with sequencer := { s.sequencer with
        illegalCount := saturate 65535 s.sequencer.illegalCount
        state := if s.sequencer.state = .locked then .suspended else s.sequencer.state
        next := if s.sequencer.state = .locked then none else s.sequencer.next
        run := if s.sequencer.state = .locked then none else s.sequencer.run } }

theorem takeIllegal_eq (s : State) : takeIllegal s = transmit (countIllegal s) := by
  unfold takeIllegal countIllegal
  split
  · simp only [*]; rfl
  · simp only [*]

theorem takeMark_unlocked {sinceStart : Nat} {s : State}
    (h : s.sequencer.state = .seeking ∨ s.sequencer.state = .suspended) : takeMark sinceStart s =
      transmit (postCycle .stateChange (startCycle { s with sequencer := { s.sequencer with state := .locked } })) := by
  unfold takeMark; rcases h with h | h <;> simp [h]

theorem takeMark_locked {sinceStart : Nat} {s : State} (h : s.sequencer.state = .locked) : takeMark sinceStart s =
    if sinceStart + s.sequencer.tolerance < s.sequencer.length then
      transmit (postCycle .early (startCycle
        { s with sequencer := { s.sequencer with earlyCount := saturate 65535 s.sequencer.earlyCount } }))
    else if sinceStart ≤ s.sequencer.length + s.sequencer.tolerance then startCycle s else s := by
  unfold takeMark; simp [h]

/-- Settles O52: by the pulse's width and the sequencer's state. -/
theorem followerJudgesMarks : Obligations.FollowerJudgesMarks := by
  intro s width sinceStart hlive
  dsimp only
  simp only [← follows_iff]
  have hpulse : exec (.markPulseEnd width sinceStart) s = .next (endPulse width sinceStart s) := whenLive_live hlive
  have hlongPulse : exec .markLongPulse s = .next (longPulse s) := whenLive_live hlive
  have hlost : exec .lostTimeout s = .next (loseMark s) := whenLive_live hlive
  refine ⟨fun hf => ?_, fun hf hl => ?_, ?_, ?_, ?_, ?_, ?_, ?_⟩
  · rw [Bool.not_eq_true] at hf
    exact ⟨hpulse.trans (congrArg _ (endPulse_unwatched hf)), hlongPulse.trans (congrArg _ (longPulse_taken (.inl hf)))⟩
  · exact ⟨hlongPulse.trans (congrArg _ (longPulse_taken (.inr hl))), hpulse.trans (congrArg _ (endPulse_taken hf hl))⟩
  · rintro ⟨hf, hl⟩ hw
    rw [hpulse, endPulse_fresh hf hl, if_pos hw]
  · rintro ⟨hf, hl⟩ hw5 hw40
    rw [hpulse, endPulse_fresh hf hl, if_neg (by omega), if_pos hw40, takeIllegal_eq]
    exact ⟨_, rfl, postedCycle_postCycle _ _, rfl, rfl, rfl⟩
  · rintro ⟨hf, hl⟩
    rw [hlongPulse, longPulse_fresh hf hl, takeIllegal_eq]
    exact ⟨_, rfl, postedCycle_postCycle _ _, rfl, rfl, rfl⟩
  · rintro ⟨hf, hl⟩ hw40 hw60
    have hmark : exec (.markPulseEnd width sinceStart) s = .next (takeMark sinceStart s) := by
      rw [hpulse, endPulse_fresh hf hl, if_neg (by omega), if_neg (by omega), if_pos hw60]
    rw [hmark]
    refine ⟨fun hst => ?_, fun hst hearly => ?_, fun hst hnear hin => ?_⟩
    · rw [takeMark_unlocked (by rcases (follows_iff _).1 hf with h | h | h <;> simp_all)]
      exact ⟨_, rfl, (startsCycle_written .locked s.sequencer.earlyCount s).post _, postedCycle_postCycle _ _⟩
    · rw [takeMark_locked hst, if_pos hearly]
      have hstart := (startsCycle_written .locked (saturate 65535 s.sequencer.earlyCount) s).post .early
      rw [← hst] at hstart
      exact ⟨_, rfl, hst ▸ hstart, postedCycle_postCycle _ _⟩
    · rw [takeMark_locked hst, if_neg (by omega), if_pos hin]
      obtain ⟨hstart, hlink⟩ := startsCycle_startCycle s
      rw [hst] at hstart
      exact ⟨_, rfl, hstart, hlink⟩
  · intro hst
    rw [hlost]
    refine ⟨_, congrArg _ (if_pos hst), postedCycle_postCycle _ _, rfl, rfl, rfl⟩
  · intro hst
    exact hlost.trans (congrArg _ (if_neg hst))

end Sys2Proof.Machine
end

section
/-!
PROOF. The host commands as moves.
-/
namespace Sys2Proof.Machine

/-! ### The commands of the slots -/

/-- A slot command is moves when it is on every slot. -/
theorem moves_onSlot {slot : Byte} {act : SlotId → State → State × Answer} (h : ∀ i s, Moves s (act i s).1) (s : State) :
    Moves s (onSlot slot act s).1 := by
  unfold onSlot
  split
  · exact h _ s
  · exact .refl

theorem moves_answerSlotConsent (slot decision : Byte) (s : State) : Moves s (answerSlotConsent slot decision s).1 := by
  refine moves_onSlot (fun i s => ?_) s
  split
  · exact .refl
  · split
    · exact .refl
    · rename_i hst
      rw [ne_eq, Classical.not_not] at hst
      split
      · exact moves_admitCard (by rw [hst]; rfl) (by rw [hst]; decide) (by rw [hst]; decide)
      · exact moves_refused (.inr (.inr hst))

theorem ne_of_parkable {st : SlotState} (h : st.parkable = true) : st ≠ .barred ∧ st ≠ .disabled := by
  cases st <;> first | exact ⟨by decide, by decide⟩ | cases h

theorem moves_parkSlot (i : SlotId) (s : State) : Moves s (parkSlot i s).1 := by
  unfold parkSlot
  split
  · rename_i h
    obtain ⟨hb, hd⟩ := ne_of_parkable h
    exact moves_powerOff rfl (Slot.allowanceFits_stands hb hd (by decide)) rfl
  · exact .refl

theorem moves_answerSlotPark (slot : Byte) (s : State) : Moves s (answerSlotPark slot s).1 :=
  moves_onSlot (fun i s => (moves_catchUpIf _ i s).trans (moves_parkSlot i _)) s

theorem moves_answerSlotResume (slot : Byte) (s : State) : Moves s (answerSlotResume slot s).1 := by
  refine moves_onSlot (fun i s => ?_) s
  split
  · rename_i hst
    exact moves_toPowerWait (by rw [hst]; rfl) (by rw [hst]; decide) (by rw [hst]; decide)
  · exact .refl

theorem softEq_clearFaults (i : SlotId) (s : State) : SoftEq s (s.updSlot i fun c => { c with faultCount := 0 }) :=
  softEq_updSlot (Slot.alike_soft ..)

theorem clearFaults_state (i : SlotId) (s : State) :
    ((s.updSlot i fun c => { c with faultCount := 0 }).slot i).state = (s.slot i).state :=
  (softEq_clearFaults i s).state i

theorem moves_answerSlotRestart (slot : Byte) (s : State) : Moves s (answerSlotRestart slot s).1 := by
  refine moves_onSlot (fun i s => ?_) s
  have hto : (s.slot i).state.parkable = false → (s.slot i).state ≠ .barred → (s.slot i).state ≠ .disabled →
      Moves s (toIdentifying i .none (s.updSlot i fun c => { c with faultCount := 0 })) := fun hp hb hd =>
    (softEq_clearFaults i s).moves.trans (moves_toIdentifying (by rw [clearFaults_state]; exact hp)
      (Slot.allowanceFits_stands (by rw [clearFaults_state]; exact hb) (by rw [clearFaults_state]; exact hd) (by decide)))
  split
  case h_1 hst => exact hto (by rw [hst]; rfl) (by rw [hst]; decide) (by rw [hst]; decide)
  case h_2 hst => exact hto (by rw [hst]; rfl) (by rw [hst]; decide) (by rw [hst]; decide)
  case h_3 hst => exact hto (by rw [hst]; rfl) (by rw [hst]; decide) (by rw [hst]; decide)
  all_goals exact .refl

theorem moves_answerSlotDisable (slot : Byte) (s : State) : Moves s (answerSlotDisable slot s).1 := by
  refine moves_onSlot (fun i s => ?_) s
  split
  · exact .refl
  · exact (moves_catchUp i s).trans (moves_powerOff rfl ⟨.inl (Nat.le_refl _), .inr ⟨rfl, by decide, .inl rfl⟩⟩ rfl)

theorem moves_answerSlotEnable (slot : Byte) (s : State) : Moves s (answerSlotEnable slot s).1 := by
  refine moves_onSlot (fun i s => ?_) s
  split
  · rename_i hst
    exact (softEq_clearFaults i s).moves.trans (moves_toContactState (by rw [clearFaults_state, hst]; rfl))
  · exact .refl

/-- The state a cleared slot goes to is neither BARRED nor timed, and holds no power and no place. -/
theorem contactState_cleared {c : Slot} (h : c.allowance ≠ 0) :
    contactState c ≠ .barred ∧ (contactState c).parkable = false ∧ (contactState c).timed = false := by
  unfold contactState
  rw [if_neg h]
  split
  · exact ⟨by decide, rfl, rfl⟩
  · split <;> exact ⟨by decide, rfl, rfl⟩

/-- A slot is written and then changed. -/
theorem Changes.after_updSlot {i : SlotId} {g h : Slot → Slot} {s t : State} (hc : Changes i h (s.updSlot i g) t) :
    Changes i (fun c => h (g c)) s t := by
  obtain ⟨hb, ho, hs⟩ := hc
  refine ⟨(changes_updSlot i g s).blocks.trans hb, fun j hj => ((changes_updSlot i g s).others j hj).trans (ho j hj), ?_⟩
  rwa [slot_updSlot_self] at hs

/-- A transition between states without power or place, with the allowance and the results written. -/
theorem moves_transition_writing {i : SlotId} {st : SlotState} {r : Reason} {s : State} (a : Nat) (results : Screening)
    (hfrom : (s.slot i).state.parkable = false) (hto : st.parkable = false) (hallow : (s.slot i).AllowanceFits a st)
    (htimed : st.timed = false) :
    Moves s (transition i st r (s.updSlot i fun c => { c with allowance := a, screening := results })) := by
  have hc : Changes i (fun c => { ({ c with allowance := a, screening := results } : Slot).enter st r with timers := .idle })
      s (transition i st r (s.updSlot i fun c => { c with allowance := a, screening := results })) :=
    (changes_transition i st r _).after_updSlot.congr rfl
  exact (Micro.enters i st r a results .idle hfrom hto hallow (idle_fits htimed) hc).calm_slot hc (fun _ => rfl) rfl rfl
    fun hw => by rw [hw] at hfrom; cases hfrom

theorem moves_clearBar {i : SlotId} {s : State} (hst : (s.slot i).state = .barred) :
    Moves s (toContactState i (s.updSlot i fun c => { c with allowance := 3, screening := Screening.absent })) := by
  have hallow : ((s.updSlot i fun c => { c with allowance := 3, screening := Screening.absent }).slot i).allowance ≠ 0 := by
    rw [slot_updSlot_self]
    exact Nat.succ_ne_zero 2
  obtain ⟨hbar, hquiet, htimed⟩ := contactState_cleared hallow
  have henter := moves_transition_writing (r := .none) 3 Screening.absent (by rw [hst]; rfl) hquiet
    (⟨.inr (Nat.le_refl 3), .inl (by simpa using hbar)⟩ : (s.slot i).AllowanceFits 3 _) htimed
  unfold toContactState
  split
  · rename_i hid
    rw [hid] at henter
    exact henter.trans ((softEq_withdrawJob i _).trans (softEq_issueJob i _ _)).moves
  · exact henter

theorem moves_answerSlotClearBar (slot : Byte) (s : State) : Moves s (answerSlotClearBar slot s).1 := by
  refine moves_onSlot (fun i s => ?_) s
  split
  · exact .refl
  · rename_i hst
    split
    · exact .refl
    · exact moves_clearBar (by simpa using hst)

/-! ### The parameter store -/

theorem moves_onSet {set : Byte} {act : Fin 8 → State → State × Answer} (h : ∀ n s, Moves s (act n s).1) (s : State) :
    Moves s (onSet set act s).1 := by
  unfold onSet
  split
  · exact h _ s
  · exact .refl

/-- An unpinned set is replaced by one that agrees with itself. -/
theorem moves_storeSet {n : Fin 8} {p : ParamSet} {s : State} (hpins : s.sets[n].pins = 0) (hp : p.pins = 0)
    (hsound : s.sets[n].sound → p.sound) : Moves s (storeSet n p s) := by
  have hsame : SoftEq s { storeSet n p s with sets := s.sets } := softEq_of_slots ⟨rfl, rfl, rfl, rfl, rfl, rfl⟩ rfl
  refine Micro.calm (.sets hsame fun m => ?_) rfl fun _ hb => hb
  by_cases hm : m = n
  · subst hm
    refine .inr ⟨hpins, ?_⟩
    simpa [storeSet] using ⟨hp, hsound⟩
  · exact .inl (by simp [storeSet, Fin.val_ne_of_ne (Ne.symm hm)])

theorem moves_answerParamBegin (set : Byte) (length : Word) (s : State) :
    Moves s (answerParamBegin set length s).1 := by
  refine moves_onSet (fun n s => ?_) s
  split
  · exact .refl
  · rename_i hpins
    split
    · exact .refl
    · rename_i hrange
      have hp : s.sets[n].pins = 0 := by simpa using hpins
      refine moves_storeSet hp hp fun _ => ?_
      simp only [ParamSet.sound, ParamSet.written, List.length_nil]
      omega

theorem moves_announceSet (n : Fin 8) (s : State) : Moves s (announceSet n s) :=
  (softEq_mapSlots fun _ => Slot.alike_soft ..).moves

theorem moves_answerParamLoad (set : Byte) (offset : Word) (count : Byte) (words : List Word) (s : State) :
    Moves s (answerParamLoad set offset count words s).1 := by
  unfold answerParamLoad
  split
  · exact .refl
  refine moves_onSet (fun n s => ?_) s
  split
  · exact .refl
  rename_i hpins
  split
  · exact .refl
  rename_i hloading
  split
  · exact .refl
  split
  · exact .refl
  split
  · exact .refl
  split
  · exact .refl
  rename_i hoffset hfits
  have hp : s.sets[n].pins = 0 := by simpa using hpins
  have hl : s.sets[n].state = .loading := by simpa using hloading
  simp only [setAnswer]
  unfold loadWords
  dsimp only
  split
  · rename_i hfull
    have hstore : Moves s (storeSet n { s.sets[n] with words := s.sets[n].words ++ words, state := .ready } s) := by
      refine moves_storeSet hp hp fun hs => ?_
      simp only [ParamSet.sound, hl, ParamSet.written] at hs ⊢
      omega
    exact hstore.trans (moves_announceSet n _)
  · rename_i hfull
    refine moves_storeSet hp hp fun hs => ?_
    simp only [ParamSet.sound, hl, ParamSet.written, List.length_append] at hs hfull hoffset hfits ⊢
    omega

theorem moves_answerParamFree (set : Byte) (s : State) : Moves s (answerParamFree set s).1 := by
  refine moves_onSet (fun n s => ?_) s
  split
  · exact .refl
  · rename_i hpins
    exact moves_storeSet (by simpa using hpins) rfl fun _ => ⟨rfl, rfl⟩

/-! ### SET_POWER and SET_CYCLE -/

/-- A refusal of a queued slot is a power-down like any other (05 R94). -/
theorem changes_refuse (i : SlotId) (s : State) :
    Changes i (fun c => { (c.dropped (s.slot i).allowance).enter .refused .powerRange with timers := StateTimers.idle })
      (dropBlocks i s) (transition i .refused .powerRange (powerDown i s)) := by
  refine changes_drop ?_
  rw [updSlot_id]
  refine ⟨.refl _, fun _ _ => .refl _, .of_eq ?_⟩
  rw [slot_transition_self]
  rfl

/-- The slots refused under a lowered budget hold no window: the room queue waits as before (05 R94). -/
theorem refuseQueued_room (q : List PowerEntry) : ∀ s : State, (∀ e ∈ q, e.slot ∉ s.planner.plan.map PlanWindow.slot) →
    (refuseQueued q s).planner.plan = s.planner.plan ∧ (refuseQueued q s).planner.settings = s.planner.settings ∧
      (∀ j ∈ (refuseQueued q s).planner.room, j ∈ s.planner.room) ∧
      ∀ j, ((refuseQueued q s).slot j).screening = (s.slot j).screening := by
  induction q with
  | nil => exact fun _ _ => ⟨rfl, rfl, fun _ hj => hj, fun _ => rfl⟩
  | cons e q ih =>
    intro s h
    have he := h e (by simp)
    have hrest := fun f hf => h f (List.mem_cons_of_mem e hf)
    unfold refuseQueued
    split
    · have hc := changes_refuse e.slot s
      have hp : (transition e.slot .refused .powerRange (powerDown e.slot s)).planner = (dropBlocks e.slot s).planner :=
        hc.blocks.planner
      have hplan : (dropBlocks e.slot s).planner.plan = s.planner.plan := List.filter_eq_self.2 fun w hw => by
        have hne : w.slot ≠ e.slot := fun hwe => he (hwe ▸ List.mem_map_of_mem hw)
        simpa using hne
      obtain ⟨h1, h2, h3, h4⟩ := ih (transition e.slot .refused .powerRange (powerDown e.slot s))
        fun f hf => by rw [hp, hplan]; exact hrest f hf
      refine ⟨h1.trans (by rw [hp, hplan]), h2.trans (by rw [hp]; rfl), fun j hj => ?_, fun j =>
        (h4 j).trans (hc.screening rfl j)⟩
      have hj' := h3 j hj
      rw [hp] at hj'
      exact (List.mem_filter.1 hj').1
    · exact ih s hrest

theorem slot_storedPower (v : PowerFields) (s : State) (i : SlotId) :
    (recomputeThresholds (storePower v s)).slot i = { s.slot i with
      threshold := (s.slot i).threshold.map fun _ =>
        overloadThreshold (s.slot i).power (storePower v s).monitor.margin } := by
  unfold recomputeThresholds
  rw [slot_mapSlots]
  rfl

theorem moves_answerSetPower (v : PowerFields) (s : State) : Moves s (answerSetPower v s).1 := by
  unfold answerSetPower
  split
  · exact .refl
  · split
    · exact .refl
    · rename_i hfits
      have hstored := (Micro.power v (s := s) (by omega) (by omega)).smalls
      have hroom : s.roomBlocked → (recomputeThresholds (storePower v s)).roomBlocked := fun hb =>
        hb.congr rfl rfl (fun _ hj => hj) fun j _ => by rw [slot_storedPower]
      dsimp only
      unfold applyPower
      dsimp only
      split
      · refine Smalls.examined (hstored.tail (.refuses _)) fun hq hp hb => ?_
        obtain ⟨h1, h2, h3, h4⟩ := refuseQueued_room (recomputeThresholds (storePower v s)).arbiter.queue
          (recomputeThresholds (storePower v s)) fun e he hm => by
            have hwait := (hq.2.2 e.slot).1.1 (List.mem_map_of_mem he)
            rcases (hp.members e.slot).1 hm with hst | hst <;> rw [hwait] at hst <;> cases hst
        exact (hroom hb).congr h1 h2 h3 fun j _ => h4 j
      · exact hstored.examined fun _ _ => hroom

/-- A new mode enters its first state, with no window in progress (08 R138, R140). -/
theorem cycleSound_changeMode (v : CycleSettings) {s : State} (h : s.cycleSound) :
    ({ changeMode v s with planner := { s.planner with settings := v } } : State).cycleSound := by
  obtain ⟨_, _, _, hearly, hlost, hillegal⟩ := h
  refine ⟨?_, ?_, fun hrun => absurd hrun Bool.false_ne_true, hearly, hlost, hillegal⟩
  · change match v.mode with
      | .off => v.mode.entryState = .stopped
      | .master => v.mode.entryState = .running
      | .follower => v.mode.entryState.follows = true
    cases v.mode <;> rfl
  · intro hlow
    have hmaster : v.mode = .master := of_decide_eq_true hlow
    change v.mode.entryState = .running
    rw [hmaster]; rfl

/-- A usable span no greater comes with a plan limit no greater (07 R133, 08 R141). -/
theorem planLimit_le {old new : CycleSettings} {limit : Nat} (hon : new.mode ≠ .off)
    (hrange : 2500 ≤ new.length ∧ new.tolerance ≤ 500) (hspan : usableSpan new ≤ usableSpan old)
    (hlimit : planLimit old = some limit) : ∃ limit', planLimit new = some limit' ∧ limit' ≤ limit := by
  have hnew : ∃ ticks, usableSpan new = ticks - 300 ∧ planLimit new = some (ticks - 250) ∧ 2000 ≤ ticks := by
    unfold usableSpan planLimit
    cases hm : new.mode with
    | off => exact absurd hm hon
    | master => exact ⟨_, rfl, rfl, by omega⟩
    | follower => exact ⟨_, rfl, rfl, by omega⟩
  have hold : ∃ ticks, usableSpan old = ticks - 300 ∧ limit = ticks - 250 := by
    unfold usableSpan
    unfold planLimit at hlimit
    cases hm : old.mode <;> rw [hm] at hlimit
    · cases hlimit
    · exact ⟨_, rfl, (Option.some.inj hlimit).symm⟩
    · exact ⟨_, rfl, (Option.some.inj hlimit).symm⟩
  obtain ⟨ticks, hs, hl, hpos⟩ := hnew
  obtain ⟨ticks', hs', hl'⟩ := hold
  exact ⟨_, hl, by omega⟩

/-- A SET_CYCLE that walks no room queue leaves no slot of it better off (08 R140). -/
theorem roomBlocked_settings {v : CycleSettings} {s t : State} (hb : s.roomBlocked) (hplanner : t.planner =
      { s.planner with settings := v }) (hscreening : ∀ j, (t.slot j).screening = (s.slot j).screening)
    (hrange : 2500 ≤ v.length ∧ v.tolerance ≤ 500) (hwalks : cycleWalks s.planner.settings v = false) :
    t.roomBlocked := by
  unfold cycleWalks at hwalks
  simp only [Bool.or_eq_false_iff, Bool.and_eq_false_iff, decide_eq_false_iff_not, Classical.not_not, Nat.not_lt] at hwalks
  obtain ⟨hmode, hspan⟩ := hwalks
  intro j hj
  rw [hplanner] at hj
  refine tryPlace_none_mono (hb j hj) (hscreening j) (Nat.le_of_eq (congrArg (fun p => planTicks p.plan) hplanner.symm))
    (fun hon hoff => ?_) fun hon limit hl => ?_
  · rw [hplanner] at hon
    exact hon (hmode.resolve_left fun h => h hoff)
  · rw [hplanner] at hon ⊢
    exact planLimit_le hon hrange hspan hl

theorem moves_applyCycle {v : CycleSettings} {s : State} (hrange : 2500 ≤ v.length ∧ v.length ≤ 500000 ∧
    10 ≤ v.tolerance ∧ v.tolerance ≤ 500) (hfits : planFits v s.planner.plan = true)
    (hoff : v.mode = .off → s.planner.settings.mode = .off ∨ s.anyPlanned = false) : Moves s (applyCycle v s) := by
  obtain ⟨hl1, hl2, ht1, ht2⟩ := hrange
  have hcycle : Micro s (if v.mode = s.planner.settings.mode then { s with planner := { s.planner with settings := v } }
      else postCycle .stateChange (changeMode v { s with planner := { s.planner with settings := v } })) := by
    split
    · rename_i hmode
      exact .cycle v hl1 hl2 ht1 ht2 hfits hoff rfl rfl (.inl rfl)
        (fun ⟨hst, hrest⟩ => ⟨by rw [← hmode] at hst; exact hst, hrest⟩) (.refl s)
    · have hsame : SoftEq s { postCycle .stateChange (changeMode v { s with planner := { s.planner with settings := v } })
          with planner := s.planner, sequencer := s.sequencer } :=
        softEq_of_slots ⟨rfl, rfl, rfl, rfl, rfl, rfl⟩ rfl
      exact .cycle v hl1 hl2 ht1 ht2 hfits hoff rfl rfl (.inr rfl) (cycleSound_changeMode v) hsame
  have hsame : (if v.mode = s.planner.settings.mode then { s with planner := { s.planner with settings := v } }
      else postCycle .stateChange (changeMode v { s with planner := { s.planner with settings := v } })).arbiter = s.arbiter ∧
      (if v.mode = s.planner.settings.mode then { s with planner := { s.planner with settings := v } }
      else postCycle .stateChange (changeMode v { s with planner := { s.planner with settings := v } })).planner =
        { s.planner with settings := v } ∧
      ∀ j, ((if v.mode = s.planner.settings.mode then { s with planner := { s.planner with settings := v } }
      else postCycle .stateChange (changeMode v { s with planner := { s.planner with settings := v } })).slot j).screening =
        (s.slot j).screening := by
    split <;> exact ⟨rfl, rfl, fun _ => rfl⟩
  unfold applyCycle
  dsimp only
  generalize (if v.mode = s.planner.settings.mode then { s with planner := { s.planner with settings := v } }
      else postCycle .stateChange (changeMode v { s with planner := { s.planner with settings := v } })) = moved
    at hcycle hsame ⊢
  obtain ⟨harbiter, hplanner, hscreening⟩ := hsame
  split
  · refine .single ⟨hcycle.smalls.tail (.walks moved), fun _ hb => ?_, fun _ _ _ => walkRoom_blocked moved⟩
    rw [walkRoom_arbiter, harbiter]
    exact hb
  · rename_i hwalks
    exact hcycle.calm harbiter fun _ hb =>
      roomBlocked_settings hb hplanner hscreening ⟨hl1, ht2⟩ (by simpa using hwalks)

theorem moves_judgeCycle (v : CycleSettings) (s : State) : Moves s (judgeCycle v s).1 := by
  unfold judgeCycle
  split
  · exact .refl
  · rename_i hrange
    split
    · exact .refl
    · rename_i hmode
      split
      · rename_i hfits
        refine moves_applyCycle (by omega) hfits fun hoff => ?_
        refine Classical.byContradiction fun hn => ?_
        rw [not_or, Bool.not_eq_false] at hn
        exact hmode ⟨fun h => hn.1 (h.symm.trans hoff), hn.1, hn.2⟩
      · exact .refl

theorem moves_answerSetCycle (mode : Byte) (length : Long) (tolerance : Word) (s : State) :
    Moves s (answerSetCycle mode length tolerance s).1 := by
  unfold answerSetCycle
  split
  · exact .refl
  · exact moves_judgeCycle _ s

/-! ### Every host command -/

theorem softEq_queueReply (kind tag : Byte) (a : Answer) (s : State) : SoftEq s (queueReply kind tag a s) :=
  softEq_of_slots ⟨rfl, rfl, rfl, rfl, rfl, rfl⟩ rfl

theorem softEq_settings (s : State) (times : SlotTimes) (policy : Policy) (keys : Vector KeySlot 4) :
    SoftEq s { s with times := times, policy := policy, keys := keys } :=
  softEq_of_slots ⟨rfl, rfl, rfl, rfl, rfl, rfl⟩ rfl

theorem moves_setRecorder (r : Recorder) (s : State) : Moves s (s.setRecorder r) := (softEq_recorder s r).moves

theorem moves_postRecorder (cause : RecCause) (s : State) : Moves s (postRecorder cause s) := (softEq_postNotice ..).moves

theorem moves_recorderCommand {act : State → State × Answer}
    (h : ∀ s, ∃ r notices, (act s).1 = { s with recorder := r, link := { s.link with notices := notices } }) (s : State) :
    Moves s (act s).1 := by
  obtain ⟨r, notices, h⟩ := h s
  have hsame : SoftEq s { s with recorder := r, link := { s.link with notices := notices } } :=
    softEq_of_slots ⟨rfl, rfl, rfl, rfl, rfl, rfl⟩ rfl
  rw [h]
  exact hsame.moves

theorem answerRecSet_recorder (v : RecSetFields) (s : State) : ∃ r notices,
    (answerRecSet v s).1 = { s with recorder := r, link := { s.link with notices := notices } } := by
  unfold answerRecSet
  split
  · exact ⟨_, _, rfl⟩
  · split <;> exact ⟨_, _, rfl⟩

theorem answerRecArm_recorder (s : State) : ∃ r notices,
    (answerRecArm s).1 = { s with recorder := r, link := { s.link with notices := notices } } := by
  unfold answerRecArm
  split <;> exact ⟨_, _, rfl⟩

theorem answerRecStop_recorder (s : State) : ∃ r notices,
    (answerRecStop s).1 = { s with recorder := r, link := { s.link with notices := notices } } := by
  unfold answerRecStop
  split <;> exact ⟨_, _, rfl⟩

theorem answerRecTrigger_recorder (s : State) : ∃ r notices,
    (answerRecTrigger s).1 = { s with recorder := r, link := { s.link with notices := notices } } := by
  unfold answerRecTrigger
  split <;> exact ⟨_, _, rfl⟩

theorem answerRecRelease_recorder (s : State) : ∃ r notices,
    (answerRecRelease s).1 = { s with recorder := r, link := { s.link with notices := notices } } := by
  unfold answerRecRelease
  split
  · exact ⟨_, _, rfl⟩
  · dsimp only
    split <;> exact ⟨_, _, rfl⟩

/-- Every host command is moves. -/
theorem moves_hostAct {act : State → State × Answer} (h : HostAct act) (s : State) : Moves s (act s).1 := by
  cases h with
  | reads h => rw [h s]; exact .refl
  | settings h =>
    obtain ⟨times, policy, keys, h⟩ := h s
    rw [h]
    exact (softEq_settings s times policy keys).moves
  | warmRestart => exact (softEq_link s _).moves
  | setPower v => exact moves_answerSetPower v s
  | setCycle mode length tolerance => exact moves_answerSetCycle mode length tolerance s
  | slotConsent slot decision => exact moves_answerSlotConsent slot decision s
  | slotPark slot => exact moves_answerSlotPark slot s
  | slotResume slot => exact moves_answerSlotResume slot s
  | slotRestart slot => exact moves_answerSlotRestart slot s
  | slotDisable slot => exact moves_answerSlotDisable slot s
  | slotEnable slot => exact moves_answerSlotEnable slot s
  | slotClearBar slot => exact moves_answerSlotClearBar slot s
  | paramBegin set length => exact moves_answerParamBegin set length s
  | paramLoad set offset count words => exact moves_answerParamLoad set offset count words s
  | paramFree set => exact moves_answerParamFree set s
  | recSet v => exact moves_recorderCommand (answerRecSet_recorder v) s
  | recArm => exact moves_recorderCommand answerRecArm_recorder s
  | recStop => exact moves_recorderCommand answerRecStop_recorder s
  | recTrigger => exact moves_recorderCommand answerRecTrigger_recorder s
  | recRelease => exact moves_recorderCommand answerRecRelease_recorder s

theorem moves_takeCommand (kind tag : Byte) {act : State → State × Answer} (h : HostAct act) (s : State) :
    Moves s (takeCommand kind tag act s) := by
  unfold takeCommand
  split
  · exact .refl
  · split
    · exact (softEq_link s _).moves
    · exact ((moves_hostAct h s).trans (softEq_queueReply ..).moves).trans (moves_transmit _)

/-! ### The warm restart -/

theorem softEq_clearPort (s : State) : SoftEq s (clearPort s) :=
  (softEq_mapSlots fun _ => Slot.alike_soft ..).trans (softEq_link _ _)

theorem ne_of_restarted {st : SlotState} (h : st.restarted = true) : st ≠ .barred ∧ st ≠ .disabled := by
  cases st <;> first | exact ⟨by decide, by decide⟩ | cases h

theorem smalls_toIdentifying_after {i : SlotId} {s : State}
    (h : Micro s (transition i .identifying .warmRestart (powerDown i s))) :
    Smalls s (toIdentifying i .warmRestart (powerDown i s)) :=
  h.smalls.tail (.micro (.soft ((softEq_withdrawJob i _).trans (softEq_issueJob i _ _))))

theorem smalls_restartSlot (s : State) (i : SlotId) : Smalls s (restartSlot s i) := by
  unfold restartSlot
  split
  · rename_i h
    obtain ⟨hb, hd⟩ := ne_of_restarted h
    refine smalls_toIdentifying_after (.drops i .identifying .warmRestart (s.slot i).allowance .idle rfl
      (Slot.allowanceFits_stands hb hd (by decide)) (idle_fits rfl) ?_)
    rw [updSlot_id]
    refine ⟨.refl _, fun _ _ => .refl _, .of_eq ?_⟩
    rw [slot_transition_self]
    rfl
  · exact .refl

/-- A restarted slot leaves the queues; the other slots stand in them as before. -/
theorem restartSlot_queues (s : State) (i : SlotId) :
    (∀ j, j ≠ i → ((restartSlot s i).slot j).state = (s.slot j).state) ∧
    (∀ j, j ∈ (restartSlot s i).arbiter.queue.map PowerEntry.slot → j ∈ s.arbiter.queue.map PowerEntry.slot ∧
      (j = i → (s.slot i).state.restarted = false)) ∧
    ∀ j, j ∈ (restartSlot s i).planner.room → j ∈ s.planner.room ∧ (j = i → (s.slot i).state.restarted = false) := by
  unfold restartSlot
  split
  · refine ⟨fun j hj => ?_, fun j hj => ?_, fun j hj => ?_⟩
    · simp [toIdentifying, hj]
    · have hq : (toIdentifying i .warmRestart (powerDown i s)).arbiter.queue =
          s.arbiter.queue.filter fun e => decide (e.slot ≠ i) := by
        simp [toIdentifying, powerDown_queue]
      rw [hq] at hj
      obtain ⟨e, he, rfl⟩ := List.mem_map.1 hj
      obtain ⟨he, hne⟩ := List.mem_filter.1 he
      exact ⟨List.mem_map_of_mem he, fun h => absurd h (by simpa using hne)⟩
    · have hr : (toIdentifying i .warmRestart (powerDown i s)).planner.room =
          s.planner.room.filter fun j => decide (j ≠ i) := by
        simp [toIdentifying, powerDown_planner]
      rw [hr] at hj
      obtain ⟨hj, hne⟩ := List.mem_filter.1 hj
      exact ⟨hj, fun h => absurd h (by simpa using hne)⟩
  · rename_i h
    exact ⟨fun _ _ => rfl, fun _ hj => ⟨hj, fun _ => by simpa using h⟩, fun _ hj => ⟨hj, fun _ => by simpa using h⟩⟩

theorem restartSlots_queues (l : List SlotId) : ∀ s : State, l.Nodup →
    (∀ j, j ∈ (l.foldl restartSlot s).arbiter.queue.map PowerEntry.slot → j ∈ s.arbiter.queue.map PowerEntry.slot ∧
      (j ∈ l → (s.slot j).state.restarted = false)) ∧
    ∀ j, j ∈ (l.foldl restartSlot s).planner.room → j ∈ s.planner.room ∧ (j ∈ l → (s.slot j).state.restarted = false) := by
  induction l with
  | nil => exact fun s _ => ⟨fun _ hj => ⟨hj, fun h => absurd h List.not_mem_nil⟩,
      fun _ hj => ⟨hj, fun h => absurd h List.not_mem_nil⟩⟩
  | cons i l ih =>
    intro s hnodup
    rw [List.nodup_cons] at hnodup
    obtain ⟨hstate, hqueue, hroom⟩ := restartSlot_queues s i
    obtain ⟨ihq, ihr⟩ := ih (restartSlot s i) hnodup.2
    have hstands : ∀ j, (j = i → (s.slot i).state.restarted = false) →
        (j ∈ l → ((restartSlot s i).slot j).state.restarted = false) → j ∈ i :: l → (s.slot j).state.restarted = false := by
      intro j hi hl hj
      by_cases hji : j = i
      · rw [hji]; exact hi hji
      · rw [← hstate j hji]; exact hl ((List.mem_cons.1 hj).resolve_left hji)
    exact ⟨fun j hj => ⟨(hqueue j (ihq j hj).1).1, hstands j (hqueue j (ihq j hj).1).2 (ihq j hj).2⟩,
      fun j hj => ⟨(hroom j (ihr j hj).1).1, hstands j (hroom j (ihr j hj).1).2 (ihr j hj).2⟩⟩

theorem smalls_foldl {f : State → SlotId → State} (h : ∀ s i, Smalls s (f s i)) (l : List SlotId) :
    ∀ s, Smalls s (l.foldl f s) := by
  induction l with
  | nil => exact fun _ => .refl
  | cons i l ih => exact fun s => (h s i).trans (ih _)

/-- The restart of the slots leaves no slot in a queue: those that waited are identified anew (01 R30, 05 R106, 08 R161). -/
theorem moves_restartSlots (s : State) : Moves s ((List.finRange 12).foldl restartSlot s) := by
  obtain ⟨hqueue, hroom⟩ := restartSlots_queues (List.finRange 12) s (List.nodup_finRange 12)
  refine .single ⟨smalls_foldl smalls_restartSlot _ s, fun hq _ e rest he => ?_, fun hq _ _ j hj => ?_⟩
  · obtain ⟨hmem, hstill⟩ := hqueue e.slot (by rw [he]; simp)
    have hrestarted := hstill (List.mem_finRange _)
    rw [(hq.2.2 e.slot).1.1 hmem] at hrestarted
    cases hrestarted
  · obtain ⟨hmem, hstill⟩ := hroom j hj
    have hrestarted := hstill (List.mem_finRange _)
    rw [(hq.2.2 j).2.1 hmem] at hrestarted
    cases hrestarted

theorem moves_performRestart (s : State) : Moves s (performRestart s) := by
  unfold performRestart restartRecorder
  dsimp only
  have hslots := ((moves_catchUpAll s).trans (softEq_clearPort _).moves).trans
    (moves_restartSlots (clearPort (catchUpAll s)))
  split
  · exact hslots.trans (moves_setRecorder _ _)
  · exact (hslots.trans (moves_setRecorder _ _)).trans (moves_postRecorder _ _)

end Sys2Proof.Machine
end

section
/-!
PROOF. Every event of a running machine is moves and changes of contacts.
-/
namespace Sys2Proof.Machine

/-! ### Contacts -/

theorem updSlot_updSlot (i : SlotId) (f g : Slot → Slot) (s : State) :
    (s.updSlot i f).updSlot i g = s.updSlot i fun c => g (f c) := by
  rw [updSlot_eq, slot_updSlot_self]
  simp [State.updSlot, State.setSlot]

/-- A change of one slot's contacts, each of which follows its raw input again afterwards. -/
theorem turns_contacts {i : SlotId} {g : Slot → Slot} {s : State} (hg : (s.slot i).withContacts (g (s.slot i)) = g (s.slot i))
    (h : ∀ contact, (s.slot i).Follows contact → (g (s.slot i)).Follows contact) : Turns s (s.updSlot i g) := by
  refine .single (.contacts i ?_ ?_)
  · rw [slot_updSlot_self]; exact h
  · refine (changes_updSlot i g s).congr ?_
    rw [slot_updSlot_self]
    exact hg.symm

theorem Slot.Follows.congr {c d : Slot} {contact : Contact} (h : c.Follows contact)
    (ht : d.debounceTimer contact = c.debounceTimer contact) (hr : d.raw contact = c.raw contact)
    (hd : d.debounced contact = c.debounced contact) : d.Follows contact := by
  unfold Slot.Follows at *; rw [ht, hr, hd]; exact h

/-- The debounce starts or is cancelled by the raw level (01 R5). -/
theorem follows_followRaw (c : Slot) (contact : Contact) (time : Nat) : (c.followRaw contact time).Follows contact := by
  unfold Slot.Follows Slot.followRaw
  have hsome : ∀ a b : Bool, (if a = b then none else some time).isSome = true ↔ a ≠ b := fun a b => by
    by_cases h : a = b <;> simp [h]
  cases contact
  · exact hsome c.earlyRaw c.early
  · exact hsome c.lateRaw c.late

theorem turns_followRaw (i : SlotId) (contact : Contact) (made : Bool) (time : Nat) (s : State) :
    Turns s ((s.updSlot i fun c => c.setRaw contact made).updSlot i fun c => c.followRaw contact time) := by
  rw [updSlot_updSlot]
  refine turns_contacts (by cases contact <;> rfl) fun other hother => ?_
  by_cases h : other = contact
  · subst h; exact follows_followRaw _ _ _
  · refine hother.congr ?_ ?_ ?_ <;> cases contact <;> cases other <;> first | rfl | exact absurd rfl h

/-- The debounced state has taken the raw value (01 R5). -/
theorem turns_setDebounced (i : SlotId) (contact : Contact) (made : Bool) (s : State)
    (hraw : (s.slot i).raw contact = made) : Turns s (s.updSlot i fun c => c.setDebounced contact made) := by
  refine turns_contacts (by cases contact <;> rfl) fun other hother => ?_
  by_cases h : other = contact
  · subst h
    unfold Slot.Follows
    cases other <;> simp [Slot.setDebounced, Slot.debounceTimer, Slot.raw, Slot.debounced] <;> exact hraw
  · refine hother.congr ?_ ?_ ?_ <;> cases contact <;> cases other <;> first | rfl | exact absurd rfl h

/-- A card-present state is neither BARRED nor DISABLED (01 R10). -/
theorem ne_of_cardPresent {st : SlotState} (h : st.cardPresent = true) : st ≠ .barred ∧ st ≠ .disabled := by
  cases st <;> first | exact ⟨by decide, by decide⟩ | cases h

theorem moves_powerOff_present {i : SlotId} {st : SlotState} {r : Reason} {s : State}
    (hp : (s.slot i).state.cardPresent = true) (hto : st.parkable = false) (hst : st ≠ .barred) (htimed : st.timed = false) :
    Moves s (powerOff i st r s) :=
  moves_powerOff hto (Slot.allowanceFits_stands (ne_of_cardPresent hp).1 (ne_of_cardPresent hp).2 hst) htimed

/-- The removal of a card whose LATE contact is open, as its raw input is (01 R10, R11). -/
theorem turns_removeCard {i : SlotId} {s : State} (hp : (s.slot i).state.cardPresent = true)
    (hraw : (s.slot i).lateRaw = false) : Turns s (removeCard i s) := by
  have hcontact : Turns s (s.updSlot i fun c => { c with late := false, debounceLate := none }) := by
    refine turns_contacts rfl fun contact hcontact => ?_
    cases contact
    · exact hcontact.congr rfl rfl rfl
    · simp [Slot.Follows, Slot.debounceTimer, Slot.raw, Slot.debounced, hraw]
  refine hcontact.trans (moves_powerOff_present ?_ rfl (by decide) rfl).turns
  rw [slot_updSlot_self]; exact hp

/-- The removal of a card whose LATE contact breaks in the same event (01 R10). -/
theorem turns_breakLate {i : SlotId} {s : State} (hp : (s.slot i).state.cardPresent = true) :
    Turns s (removeCard i (s.updSlot i fun c => c.setRaw .late false)) := by
  have hcontact : Turns s (s.updSlot i fun c => { c.setRaw .late false with late := false, debounceLate := none }) := by
    refine turns_contacts rfl fun contact hcontact => ?_
    cases contact
    · exact hcontact.congr rfl rfl rfl
    · simp [Slot.Follows, Slot.debounceTimer, Slot.raw, Slot.debounced, Slot.setRaw]
  unfold removeCard
  rw [updSlot_updSlot]
  refine hcontact.trans (moves_powerOff_present ?_ rfl (by decide) rfl).turns
  rw [slot_updSlot_self]; exact hp

theorem turns_changeContact (i : SlotId) (contact : Contact) (made : Bool) (s : State) :
    Turns s (changeContact i contact made s) := by
  unfold changeContact
  dsimp only
  split
  · rename_i h
    obtain ⟨rfl, rfl, hp⟩ := h
    exact (turns_breakLate hp).trans (moves_transmit _).turns
  · exact turns_followRaw i contact made _ s

/-! ### Acting on a contact (01 R6, R11 to R13) -/

theorem actOnContact_present {i : SlotId} {s : State} (contact : Contact) (made : Bool)
    (hp : (s.slot i).state.cardPresent = true) : actOnContact i contact made s =
      if made then s else match contact with
        | .early => earlyBreak i s
        | .late => removeCard i s := by
  unfold actOnContact
  cases hst : (s.slot i).state <;> rw [hst] at hp
  case empty | mating | removing | disabled | barred => cases hp
  all_goals cases contact <;> cases made <;> rfl

theorem actOnContact_held {i : SlotId} {s : State} (contact : Contact) (made : Bool)
    (h : (s.slot i).state = .disabled ∨ (s.slot i).state = .barred) : actOnContact i contact made s = s := by
  unfold actOnContact
  rcases h with h | h <;> rw [h]

theorem actOnContact_empty {i : SlotId} {s : State} (contact : Contact) (made : Bool) (h : (s.slot i).state = .empty) :
    actOnContact i contact made s = if contact = .early ∧ made = true then
      if (s.slot i).late then toIdentifying i .none (transition i .mating .none s) else transition i .mating .none s
    else s := by
  unfold actOnContact
  rw [h]
  cases contact <;> cases made <;> rfl

theorem actOnContact_mating {i : SlotId} {s : State} (contact : Contact) (made : Bool) (h : (s.slot i).state = .mating) :
    actOnContact i contact made s = if contact = .late ∧ made = true then toIdentifying i .none s
      else if contact = .early ∧ made = false then transition i .empty .none s else s := by
  unfold actOnContact
  rw [h]
  cases contact <;> cases made <;> rfl

theorem actOnContact_removing {i : SlotId} {s : State} (contact : Contact) (made : Bool)
    (h : (s.slot i).state = .removing) : actOnContact i contact made s =
      if contact = .late ∧ made = true then toIdentifying i .none s
      else if contact = .early ∧ made = false then cardGone i s else s := by
  unfold actOnContact
  rw [h]
  cases contact <;> cases made <;> rfl

/-- A state is card-present, holds its card out of service, or has none. -/
theorem SlotState.present_or (st : SlotState) : st.cardPresent = true ∨ (st = .disabled ∨ st = .barred) ∨
    st = .empty ∨ st = .mating ∨ st = .removing := by
  cases st <;> simp [SlotState.cardPresent]

theorem moves_earlyBreak {i : SlotId} {s : State} (hp : (s.slot i).state.cardPresent = true) :
    Moves s (earlyBreak i s) :=
  (softEq_clearFaults i s).moves.trans
    (moves_powerOff_present (by rw [clearFaults_state]; exact hp) rfl (by decide) rfl)

/-- From a state without a card, neither BARRED nor DISABLED, to another state without power. -/
theorem moves_cardless {i : SlotId} {st : SlotState} {s : State}
    (hst : (s.slot i).state = .empty ∨ (s.slot i).state = .mating ∨ (s.slot i).state = .removing)
    (hto : st.parkable = false) (hbar : st ≠ .barred) (htimed : st.timed = false) : Moves s (transition i st .none s) := by
  have hquiet : (s.slot i).state.parkable = false ∧ (s.slot i).state ≠ .barred ∧ (s.slot i).state ≠ .disabled := by
    rcases hst with h | h | h <;> rw [h] <;> decide
  exact moves_transition hquiet.1 hto (Slot.allowanceFits_stands hquiet.2.1 hquiet.2.2 hbar) htimed

theorem moves_cardless_identifying {i : SlotId} {s : State}
    (hst : (s.slot i).state = .empty ∨ (s.slot i).state = .mating ∨ (s.slot i).state = .removing) :
    Moves s (toIdentifying i .none s) :=
  (moves_cardless hst rfl (by decide) rfl).trans ((softEq_withdrawJob i _).trans (softEq_issueJob i _ _)).moves

theorem moves_cardGone {i : SlotId} {s : State} (hst : (s.slot i).state = .removing) : Moves s (cardGone i s) :=
  (softEq_clearFaults i s).moves.trans
    (moves_cardless (by rw [clearFaults_state]; exact .inr (.inr hst)) rfl (by decide) rfl)

/-- A slot acts on a changed debounced contact, a LATE that has opened with its raw input. -/
theorem turns_actOnContact {i : SlotId} {contact : Contact} {made : Bool} {s : State}
    (hraw : (s.slot i).raw contact = made) : Turns s (actOnContact i contact made s) := by
  rcases SlotState.present_or (s.slot i).state with hp | hheld | hst | hst | hst
  · rw [actOnContact_present contact made hp]
    split
    · exact .refl
    · rename_i hbreak
      cases contact
      · exact (moves_earlyBreak hp).turns
      · exact turns_removeCard hp (hraw.trans (by simpa using hbreak))
  · rw [actOnContact_held contact made hheld]; exact .refl
  · rw [actOnContact_empty contact made hst]
    split
    · have hmating : Moves s (transition i .mating .none s) := moves_cardless (.inl hst) rfl (by decide) rfl
      split
      · have hstate : ((transition i .mating .none s).slot i).state = .mating := by rw [slot_transition_self]; rfl
        exact hmating.turns.trans (moves_cardless_identifying (.inr (.inl hstate))).turns
      · exact hmating.turns
    · exact .refl
  · rw [actOnContact_mating contact made hst]
    split
    · exact (moves_cardless_identifying (.inr (.inl hst))).turns
    · split
      · exact (moves_cardless (.inr (.inl hst)) rfl (by decide) rfl).turns
      · exact .refl
  · rw [actOnContact_removing contact made hst]
    split
    · exact (moves_cardless_identifying (.inr (.inr hst))).turns
    · split
      · exact (moves_cardGone hst).turns
      · exact .refl

theorem raw_setDebounced (c : Slot) (contact : Contact) (made : Bool) :
    (c.setDebounced contact made).raw contact = c.raw contact := by
  cases contact <;> rfl

theorem SameContacts.raw {s t : State} (h : SameContacts s t) (i : SlotId) (contact : Contact) :
    (t.slot i).raw contact = (s.slot i).raw contact := by
  have hi := h i
  simp only [Slot.contactFields, Prod.mk.injEq] at hi
  obtain ⟨_, _, hearly, hlate, _, _⟩ := hi
  cases contact
  · exact hearly
  · exact hlate

theorem turns_expireDebounce (i : SlotId) (contact : Contact) (s : State) : Turns s (expireDebounce i contact s) := by
  unfold expireDebounce
  split
  · dsimp only
    have hcaught := moves_catchUpIf (!(s.slot i).raw contact && (s.slot i).state.cardPresent) i s
    have hraw := hcaught.sameContacts.raw i contact
    refine ((hcaught.turns.trans (turns_setDebounced i contact _ _ hraw)).trans (turns_actOnContact ?_)).trans
      (moves_transmit _).turns
    rw [slot_updSlot_self, raw_setDebounced, hraw]
  · exact .refl

end Sys2Proof.Machine
end

section
/-!
PROOF. The timers, frames and reports of the slots, the sequencer, the engine, the link and the recorder as moves.
-/
namespace Sys2Proof.Machine

/-! ### Timers -/

theorem moves_expireCooldown (i : SlotId) (s : State) : Moves s (expireCooldown i s) := by
  unfold expireCooldown
  split
  · rename_i h
    obtain ⟨hst, _⟩ := h
    have hquiet : (s.slot i).state.parkable = false ∧ (s.slot i).state ≠ .barred ∧ (s.slot i).state ≠ .disabled := by
      rw [hst]; decide
    obtain ⟨hq, hb, hd⟩ := hquiet
    split
    · exact (moves_toIdentifying hq (Slot.allowanceFits_stands hb hd (by decide))).trans (moves_transmit _)
    · exact (moves_toPowerWait hq hb hd).trans (moves_transmit _)
  · exact .refl

theorem moves_expireConsent (i : SlotId) (s : State) : Moves s (expireConsent i s) := by
  unfold expireConsent
  split
  · rename_i h
    exact (moves_refused (.inr (.inr h.1))).trans (moves_transmit _)
  · exact .refl

theorem moves_expireRamp (i : SlotId) (s : State) : Moves s (expireRamp i s) := by
  unfold expireRamp
  split
  · rename_i h
    exact (moves_takeFault _ (by rw [h.1]; decide) (by rw [h.1]; decide)).trans (moves_transmit _)
  · exact .refl

theorem moves_expireReady (i : SlotId) (s : State) : Moves s (expireReady i s) := by
  unfold expireReady
  split
  · rename_i h
    exact (moves_takeFault _ (by rw [h.1]; decide) (by rw [h.1]; decide)).trans (moves_transmit _)
  · exact .refl

theorem moves_toReadyWait {i : SlotId} {s : State} (hst : (s.slot i).state = .resetHold) :
    Moves s (toReadyWait i s) := by
  have henter : Changes i (fun c => { c.enter .readyWait .none with
        timers := { StateTimers.idle with ready := some s.times.readyTimeout } }) s
      ((transition i .readyWait .none s).updSlot i fun c =>
        { c with timers := { c.timers with ready := some s.times.readyTimeout } }) := by
    obtain ⟨hb, ho, _⟩ := changes_transition i .readyWait .none s
    refine ⟨hb.trans (changes_updSlot i _ _).blocks, fun j hj => (ho j hj).trans ((changes_updSlot i _ _).others j hj),
      .of_eq ?_⟩
    rw [slot_updSlot_self, slot_transition_self]
    rfl
  have hmove := (Micro.advances i .readyWait .none _ (.inl ⟨hst, rfl⟩)
    (by simp [StateTimers.Fits, StateTimers.idle]) henter).calm_slot henter (fun _ => rfl) rfl rfl fun _ => rfl
  refine hmove.trans (moves_pollStatus ?_)
  rw [slot_updSlot_self, slot_transition_self]
  rfl

theorem moves_expireResetHold (i : SlotId) (s : State) : Moves s (expireResetHold i s) := by
  unfold expireResetHold
  split
  · rename_i h
    exact (moves_toReadyWait h.1).trans (moves_transmit _)
  · exact .refl

theorem moves_expirePoll (i : SlotId) (s : State) : Moves s (expirePoll i s) := by
  unfold expirePoll
  split
  · rename_i h
    split
    · have hT : (s.slot i).timersFollow →
          ({ (s.slot i).timers with poll := none } : StateTimers).Fits (s.slot i).state := by
        intro ⟨consent, ramp, resetHold, ready, cooldown, _⟩
        exact ⟨consent, ramp, resetHold, ready, cooldown, fun h => by cases h⟩
      have hc : Changes i (fun c => { c with timers := { (s.slot i).timers with poll := none } }) s
          (s.updSlot i fun c => { c with pollDue := true, timers := { c.timers with poll := none } }) :=
        changes_set ⟨rfl, rfl, rfl, rfl, rfl, rfl⟩ rfl (Slot.alike_soft ..)
      exact (Micro.times i _ hT hc).calm_slot hc (fun _ => rfl) rfl rfl fun _ => rfl
    · exact moves_pollStatus h.1
  · exact .refl

/-! ### Monitor frames -/

theorem softEq_presentTrigger (t : Trigger) (s : State) : SoftEq s (presentTrigger t s) := softEq_recorder s _

theorem softEq_notePattern (above : Bool) (i : SlotId) (s : State) : SoftEq s (notePattern above i s) := by
  unfold notePattern
  split
  · exact softEq_recorder s _
  · exact .refl s

theorem moves_faultWithTrigger {i : SlotId} (code : Reason) (source : TriggerSource) {s : State}
    (hb : (s.slot i).state ≠ .barred) (hd : (s.slot i).state ≠ .disabled) :
    Moves s (faultWithTrigger i code source s) :=
  (moves_takeFault code hb hd).trans (softEq_presentTrigger _ _).moves

/-- The slot of a ramp success before the arbiter's part of it. -/
def rampHeld (i : SlotId) (s : State) : State :=
  (transition i .resetHold .none s).updSlot i fun c =>
    { c with overCurrentRun := 0, pgGoodRun := 0, pgLostRun := 0,
             threshold := some (overloadThreshold c.power s.monitor.margin),
             timers := { c.timers with resetHold := some s.times.resetHold } }

theorem rampSuccess_eq (i : SlotId) (s : State) : rampSuccess i s =
    examine { rampHeld i s with arbiter := { (rampHeld i s).arbiter with ramping := s.arbiter.ramping - 1 } } := by
  unfold rampSuccess rampHeld
  simp

theorem changes_rampHeld (i : SlotId) (s : State) : Changes i (fun c => { c.enter .resetHold .none with
      threshold := some (overloadThreshold c.power s.monitor.margin)
      timers := { StateTimers.idle with resetHold := some s.times.resetHold } }) s (rampHeld i s) := by
  obtain ⟨hb, ho, _⟩ := changes_transition i .resetHold .none s
  refine ⟨hb.trans (changes_updSlot i _ _).blocks, fun j hj => (ho j hj).trans ((changes_updSlot i _ _).others j hj), ?_⟩
  unfold rampHeld
  rw [slot_updSlot_self, slot_transition_self]
  exact Slot.alike_soft ..

theorem moves_rampSuccess {i : SlotId} {s : State} (hst : (s.slot i).state = .powering) :
    Moves s (rampSuccess i s) := by
  obtain ⟨⟨hreset, harbiter, hplanner, hsets, hsequencer, hmargin⟩, hothers, hself⟩ := changes_rampHeld i s
  have hramp : Micro s { rampHeld i s with arbiter := { (rampHeld i s).arbiter with ramping := s.arbiter.ramping - 1 } } :=
    .ramps i { StateTimers.idle with resetHold := some s.times.resetHold } hst
      (by simp [StateTimers.Fits, StateTimers.idle])
      ⟨⟨hreset, by rw [harbiter], hplanner, hsets, hsequencer, hmargin⟩, hothers, hself⟩
  rw [rampSuccess_eq]
  refine hramp.smalls.examined fun _ _ hb => ?_
  exact hb.congr (by rw [← hplanner]) (by rw [← hplanner]) (fun j hj => hplanner ▸ hj) fun j _ =>
    (changes_rampHeld i s).screening rfl j

theorem softEq_countPowering (i : SlotId) (f : MonitorSample) (above : Bool) (s : State) : SoftEq s
    (notePattern above i (s.updSlot i fun c =>
      { c with overCurrentRun := countRun above c.overCurrentRun,
               pgGoodRun := countRun (f.pg.getLsbD i.val) c.pgGoodRun })) :=
  (softEq_updSlot (Slot.alike_soft ..)).trans (softEq_notePattern ..)

theorem softEq_countInService (i : SlotId) (f : MonitorSample) (s : State) : SoftEq s (countInService i f s) :=
  (softEq_updSlot (Slot.alike_soft ..)).trans (softEq_notePattern ..)

theorem moves_frameInPowering {i : SlotId} (f : MonitorSample) {s : State} (hst : (s.slot i).state = .powering) :
    Moves s (frameInPowering i f s) := by
  unfold frameInPowering
  dsimp only
  have hcount := softEq_countPowering i f (decide (s.monitor.inrush < f.currents[i].toNat)) s
  have hstate := (hcount.state i).trans hst
  split
  · exact (hcount.moves.trans (moves_faultWithTrigger _ _ (by rw [hstate]; decide) (by rw [hstate]; decide))).trans
      (moves_transmit _)
  · split
    · exact (hcount.moves.trans (moves_rampSuccess hstate)).trans (moves_transmit _)
    · exact hcount.moves

theorem ne_of_checked {st : SlotState} (h : st.checked = true) : st ≠ .barred ∧ st ≠ .disabled := by
  cases st <;> first | exact ⟨by decide, by decide⟩ | cases h

theorem moves_frameInService {i : SlotId} (f : MonitorSample) {s : State} (hst : (s.slot i).state.checked = true) :
    Moves s (frameInService i f s) := by
  unfold frameInService
  dsimp only
  have hcount := softEq_countInService i f s
  obtain ⟨hb, hd⟩ := ne_of_checked (by rw [hcount.state i]; exact hst : ((countInService i f s).slot i).state.checked = true)
  split
  · exact (hcount.moves.trans (moves_faultWithTrigger _ _ hb hd)).trans (moves_transmit _)
  · split
    · exact (hcount.moves.trans (moves_faultWithTrigger _ _ hb hd)).trans (moves_transmit _)
    · exact hcount.moves

theorem moves_takeFrame (i : SlotId) (f : MonitorSample) (s : State) : Moves s (takeFrame i f s) := by
  unfold takeFrame
  split
  · exact moves_frameInPowering f ‹_›
  · split
    · exact moves_frameInService f ‹_›
    · exact .refl

theorem moves_takeNextFrame (i : SlotId) (s : State) : Moves s (takeNextFrame i s) := by
  unfold takeNextFrame
  split
  · exact ((moves_catchUpIf _ i s).trans (softEq_updSlot (Slot.alike_soft ..)).moves).trans (moves_takeFrame i _ _)
  · exact .refl

theorem moves_sampleFrame (f : MonitorSample) (s : State) : Moves s (sampleFrame f s) := by
  have hand : ∀ (m : MonitorFrame) (time : Long),
      Moves s (handFrame m { s with monitor := { s.monitor with timeStamp := time } }) := fun m time => by
    have htime : SoftEq s { s with monitor := { s.monitor with timeStamp := time } } :=
      softEq_of_slots ⟨rfl, rfl, rfl, rfl, rfl, rfl⟩ rfl
    have hslots : SoftEq { s with monitor := { s.monitor with timeStamp := time } }
        (handFrame m { s with monitor := { s.monitor with timeStamp := time } }) :=
      (softEq_mapSlots fun _ => Slot.alike_soft ..).trans (softEq_recorder _ _)
    exact (htime.trans hslots).moves
  unfold sampleFrame
  dsimp only
  split
  · exact (hand _ _).trans (softEq_presentTrigger _ _).moves
  · exact hand _ _

/-! ### Announcements, adoption reports, window outcomes -/

theorem moves_takeNextAnnouncement (i : SlotId) (s : State) : Moves s (takeNextAnnouncement i s) := by
  unfold takeNextAnnouncement
  split
  · rename_i n rest _
    generalize hu : (s.updSlot i fun x => { x with inbox := { x.inbox with announcements := rest } }) = u
    have hsoft : Moves s u := by rw [← hu]; exact (softEq_updSlot (Slot.alike_soft ..)).moves
    unfold takeAnnouncement
    dsimp only
    split
    · rename_i h
      obtain ⟨hst, hpin, _, _⟩ := h
      exact (hsoft.trans (moves_examineSet hst hpin)).trans (moves_transmit _)
    · exact hsoft
  · exact .refl

theorem moves_takeAdoption (i : SlotId) (s : State) : Moves s (takeAdoption i s) := by
  unfold takeAdoption
  split
  · exact .refl
  · dsimp only
    generalize hu : (s.updSlot i fun x =>
      { x with inbox := { x.inbox with adoptionReports := x.inbox.adoptionReports - 1 } }) = u
    have hsoft : SoftEq s u := by rw [← hu]; exact softEq_updSlot (Slot.alike_soft ..)
    split
    · rename_i hst
      have hc := changes_transition i .running .none u
      exact (hsoft.moves.trans ((Micro.runs i ((hsoft.state i).trans hst) hc).calm_slot hc (fun _ => rfl) rfl rfl
        fun _ => rfl)).trans (moves_transmit _)
    · exact hsoft.moves

theorem moves_actOnOutcome {i : SlotId} (o : WindowOutcome) {s : State} (hst : (s.slot i).state = .running) :
    Moves s (actOnOutcome i o s) := by
  unfold actOnOutcome
  split
  · exact (softEq_updSlot (Slot.alike_soft ..)).moves
  · dsimp only
    have hcount : SoftEq s (s.updSlot i fun c => { c with overruns := c.overruns + 1 }) :=
      softEq_updSlot (Slot.alike_soft ..)
    have hstate := (hcount.state i).trans hst
    split
    · exact (hcount.moves.trans (moves_takeFault _ (by rw [hstate]; decide) (by rw [hstate]; decide))).trans
        (moves_transmit _)
    · exact hcount.moves

theorem moves_takeNextOutcome (i : SlotId) (s : State) : Moves s (takeNextOutcome i s) := by
  unfold takeNextOutcome
  split
  · dsimp only
    rename_i o rest _
    have htaken : SoftEq s (s.updSlot i fun x => { x with inbox := { x.inbox with outcomes := rest } }) :=
      softEq_updSlot (Slot.alike_soft ..)
    split
    · rename_i hst
      exact htaken.moves.trans (moves_actOnOutcome o ((htaken.state i).trans hst))
    · exact htaken.moves
  · exact .refl

/-! ### The engine, the recorder and the link -/

theorem moves_expireSettle (i : SlotId) (s : State) : Moves s (expireSettle i s) := by
  unfold expireSettle
  split
  · rename_i hst
    have hslot : SoftEq s (s.updSlot i fun c => { c with standby := .settled }) :=
      softEq_updSlot ⟨rfl, rfl, rfl, rfl, ⟨rfl, rfl, rfl, by rw [hst]; simp⟩, ⟨rfl, rfl, rfl, rfl, rfl, rfl⟩, rfl, rfl, rfl⟩
    exact (hslot.trans (softEq_engine _ _)).moves
  · exact .refl

theorem softEq_passOnPair (cur : CurrentJob) (bytes : List BusSymbol) (s : State) : SoftEq s (passOnPair cur bytes s) :=
  softEq_engine s _

theorem moves_completeJob (how : BusEnd) (s : State) : Moves s (completeJob how s) := by
  unfold completeJob
  split
  · exact .refl
  · rename_i cur _
    dsimp only
    have hpass := softEq_passOnPair cur (endSymbols s.sets cur how) s
    split
    · exact .refl
    · split
      · exact (hpass.trans (softEq_endJob ..)).moves
      · split
        · split
          · exact (hpass.trans (softEq_endJob ..)).moves
          · exact (hpass.trans (softEq_endJob ..)).moves
        · exact (hpass.trans (softEq_endJob ..)).moves
        · exact (softEq_engine s _).moves

theorem moves_timeOutByte (late : LateByte) (s : State) : Moves s (timeOutByte late s) := by
  unfold timeOutByte
  split
  · exact .refl
  · dsimp only
    split
    · exact .refl
    · exact ((softEq_passOnPair _ _ s).trans (softEq_endJob ..)).moves

theorem softEq_writeTraceRef (reference : Option (SlotId × Nat)) (s : State) : SoftEq s (writeTraceRef reference s) := by
  unfold writeTraceRef
  split
  · exact softEq_updSlot (Slot.alike_soft ..)
  · exact .refl s

theorem moves_noticeCause (cause : Option RecCause) (s : State) : Moves s (noticeCause cause s) := by
  unfold noticeCause
  split
  · exact (moves_postRecorder _ _).trans (moves_transmit _)
  · exact .refl

theorem moves_recorderFrame (s : State) : Moves s (recorderFrame s) := by
  unfold recorderFrame
  split
  · exact ((moves_setRecorder _ s).trans (softEq_writeTraceRef _ _).moves).trans (moves_noticeCause _ _)
  · exact .refl

theorem moves_arriveTrigger (t : Trigger) (s : State) : Moves s (arriveTrigger t s) := by
  unfold arriveTrigger
  split
  · exact moves_setRecorder _ s
  · exact .refl

theorem moves_arriveReport (i : SlotId) (s : State) : Moves s (arriveReport i s) := by
  unfold arriveReport
  split
  · exact moves_setRecorder _ s
  · exact .refl

theorem moves_expireTail (s : State) : Moves s (expireTail s) := by
  unfold expireTail
  split
  · exact moves_setRecorder _ s
  · exact .refl

theorem softEq_dropChecked (s : State) : SoftEq s (dropChecked s) := by
  unfold dropChecked
  split
  · exact .refl s
  · exact softEq_link s _

theorem moves_judgeFrame (taken : List Byte) (s : State) : Moves s (judgeFrame taken s) := by
  have hhunting : SoftEq s (setReceiver .hunting s) := softEq_link s _
  unfold judgeFrame
  dsimp only
  split
  · exact hhunting.moves.trans (moves_takeCommand _ _ (hostAct_frameCommand _ _) _)
  · exact (hhunting.trans (softEq_dropChecked _)).moves

theorem moves_takeByte (b : Byte) (s : State) : Moves s (takeByte b s) := by
  have hset : ∀ r, SoftEq s (setReceiver r s) := fun r => softEq_link s _
  unfold takeByte
  split
  · split
    · exact (hset _).moves
    · exact .refl
  · split
    · exact ((hset _).trans (softEq_dropChecked _)).moves
    · exact (hset _).moves
  · split
    · exact moves_judgeFrame _ s
    · exact (hset _).moves

theorem moves_endFrame (b : Byte) (s : State) : Moves s (endFrame b s) := by
  unfold endFrame
  split
  · exact .refl
  · split
    · exact moves_judgeFrame _ s
    · exact .refl

theorem moves_abortGap (s : State) : Moves s (abortGap s) := by
  have hhunting : SoftEq s (setReceiver .hunting s) := softEq_link s _
  unfold abortGap
  split
  · exact .refl
  · dsimp only
    split
    · exact hhunting.moves
    · exact (hhunting.trans (softEq_link _ _)).moves

theorem moves_restartSent (s : State) : Moves s (restartSent s) := by
  unfold restartSent
  split
  · exact (moves_performRestart s).trans (moves_transmit _)
  · exact .refl

theorem moves_endSending (s : State) : Moves s (endSending s) := by
  unfold endSending
  split
  · split
    · exact (moves_performRestart s).trans (moves_transmit _)
    · exact (softEq_link s _).moves.trans (moves_transmit _)
  · exact (softEq_link s _).moves.trans (moves_transmit _)
  · exact .refl

end Sys2Proof.Machine
end

section
/-!
PROOF. The sequencer's events as moves, and with them every event of a running machine.
-/
namespace Sys2Proof.Machine

/-! ### The sequencer alone -/

theorem selSound_of_idle {t : State} (hactive : (t.sequencer.active.map ActiveWindow.slot).Nodup)
    (hrun : t.sequencer.run = none) : t.selSound := by
  refine ⟨hactive, fun i h => ?_⟩
  unfold State.sel at h
  rw [hrun] at h
  cases h

/-- The safety of SEL is kept where the active plan stands and the window in progress, if any, is of the same slot. -/
theorem selSound_congr {s t : State} (h : s.selSound) (hslots : ∀ i, (t.slot i).state = (s.slot i).state)
    (hactive : t.sequencer.active = s.sequencer.active) (hsel : ∀ i, t.sel i = true → s.sel i = true) : t.selSound := by
  obtain ⟨hnodup, hrun⟩ := h
  refine ⟨hactive ▸ hnodup, fun i hi => ?_⟩
  rw [hslots, hactive]
  exact hrun i (hsel i hi)

theorem saturate_le {limit n : Nat} (h : n ≤ limit) : saturate limit n ≤ limit := by
  unfold saturate; split <;> omega

theorem StartsCycle.softEq {state : SequencerState} {early : Nat} {s t : State} (h : StartsCycle state early s t) :
    SoftEq s { t with sequencer := s.sequencer } := by
  have hsame : ∀ {α : Type} (f : State → α), f { t with slots := s.slots, sequencer := s.sequencer, link := s.link } = f s :=
    fun f => congrArg f h.rest
  refine ⟨⟨hsame State.inReset, hsame State.arbiter, hsame State.planner, hsame State.sets, rfl,
    hsame fun u => u.monitor.margin⟩, fun j => ?_⟩
  change (s.slot j).Alike (t.slot j)
  by_cases hc : s.plansChanged
  · rw [h.reported hc j]
    exact Slot.alike_soft ..
  · exact .of_eq (slot_congr j (h.kept hc).2)

/-- A cycle start is one move, where the sequencer goes on in a state of its mode. -/
theorem StartsCycle.moves {state : SequencerState} {early : Nat} {s t : State} (h : StartsCycle state early s t)
    (hstate : state = s.sequencer.state ∨ state.follows = true ∧ s.sequencer.state.follows = true)
    (hearly : s.sequencer.earlyCount ≤ 65535 → early ≤ 65535) : Moves s t := by
  have hsame : ∀ {α : Type} (f : State → α), f { t with slots := s.slots, sequencer := s.sequencer, link := s.link } = f s :=
    fun f => congrArg f h.rest
  have hplanner : t.planner = s.planner := hsame State.planner
  obtain ⟨active, hseq⟩ := h.sequencer
  have hsoft := h.softEq
  refine Micro.calm (.sequencer hsoft (fun hnodup hsel => ?_) fun hcycle => ?_) hsoft.blocks.arbiter fun _ hb =>
    hb.congr (by rw [hplanner]) (by rw [hplanner]) (fun _ hj => hplanner ▸ hj) fun j _ => (hsoft.slots j).screening
  · refine selSound_of_idle ?_ (by rw [hseq])
    by_cases hc : s.plansChanged
    · rw [h.adopted hc, ← layOut_leadGap, layOut_slots]; exact hnodup
    · rw [(h.kept hc).1]; exact hsel.1
  · obtain ⟨hmode, hmark, hrun, he, hl, hi⟩ := hcycle
    unfold State.cycleSound
    rw [hseq, hplanner]
    refine ⟨?_, fun hlow => absurd hlow Bool.false_ne_true, fun hr => absurd hr Bool.false_ne_true, hearly he, hl, hi⟩
    rcases hstate with hst | ⟨hst, hold⟩
    · rw [hst]; exact hmode
    · cases hm : s.planner.settings.mode <;> rw [hm] at hmode <;> dsimp only at hmode ⊢
      · rw [hmode] at hold; cases hold
      · rw [hmode] at hold; cases hold
      · exact hst

theorem moves_startCycle (s : State) : Moves s (startCycle s) :=
  (startsCycle_startCycle s).1.moves (.inl rfl) id

/-- A change of the sequencer alone that keeps the active plan and asserts SEL for no further slot. -/
theorem moves_sequencer {q : Sequencer} {s : State} (hactive : q.active = s.sequencer.active)
    (hrun : ∀ i, ({ s with sequencer := q } : State).sel i = true → s.sel i = true)
    (hcycle : s.cycleSound → ({ s with sequencer := q } : State).cycleSound) : Moves s { s with sequencer := q } := by
  have hmove : Micro s { s with sequencer := q } :=
    .sequencer (.refl s) (fun _ hsel => selSound_congr hsel (fun _ => rfl) hactive hrun) hcycle
  exact hmove.calm rfl fun _ hb => hb

theorem moves_beginMark (s : State) : Moves s (beginMark s) := by
  unfold beginMark
  split
  · rename_i h
    refine moves_sequencer rfl (fun _ hi => hi) fun hcycle => ?_
    obtain ⟨hmode, _, hrest⟩ := hcycle
    exact ⟨hmode, fun _ => h.1, hrest⟩
  · exact .refl

theorem moves_endMark (s : State) : Moves s (endMark s) := by
  unfold endMark
  split
  · exact moves_startCycle s
  · exact .refl

theorem softEq_postCycle (cause : CycleCause) (s : State) : SoftEq s (postCycle cause s) := softEq_postNotice _ s

/-- The state an ILLEGAL pulse or a lost mark leaves belongs to the mode, and runs no window where it is SUSPENDED. -/
theorem cycleSound_suspending {s : State} {q : Sequencer} (h : s.cycleSound) (hstate : q.state = s.sequencer.state ∨
      s.sequencer.state = .locked ∧ q.state = .suspended ∧ q.run = none)
    (hmark : q.markLow = s.sequencer.markLow) (hrun : q.run.isSome → s.sequencer.run.isSome)
    (hcounts : q.earlyCount ≤ 65535 ∧ q.lostCount ≤ 65535 ∧ q.illegalCount ≤ 65535) :
    ({ s with sequencer := q } : State).cycleSound := by
  obtain ⟨hmode, hlow, hruns, _⟩ := h
  rcases hstate with hst | ⟨hold, hst, hnone⟩
  · refine ⟨?_, ?_, ?_, hcounts⟩
    · dsimp only; rw [hst]; exact hmode
    · intro hm; exact hst.trans (hlow (hmark.symm.trans hm))
    · intro hr; dsimp only; rw [hst]; exact hruns (hrun hr)
  · refine ⟨?_, ?_, ?_, hcounts⟩
    · dsimp only
      cases hm : s.planner.settings.mode <;> rw [hm, hold] at hmode <;> dsimp only at hmode ⊢
      · cases hmode
      · cases hmode
      · rw [hst]; rfl
    · intro hm
      have := hlow (hmark.symm.trans hm)
      rw [hold] at this; cases this
    · intro hr; dsimp only at hr; rw [hnone] at hr; cases hr

theorem sel_of_run {s : State} {q : Sequencer} (h : q.run = s.sequencer.run ∨ q.run = none) (i : SlotId)
    (hi : ({ s with sequencer := q } : State).sel i = true) : s.sel i = true := by
  unfold State.sel at hi ⊢
  dsimp only at hi
  rcases h with h | h <;> rw [h] at hi
  · exact hi
  · cases hi

/-- The sequencer counts an error, and out of LOCKED is SUSPENDED with its window cut (08 R151, R152). -/
theorem moves_judged {s : State} {q : Sequencer} (hactive : q.active = s.sequencer.active)
    (hstate : q.state = s.sequencer.state ∧ q.run = s.sequencer.run ∨
      s.sequencer.state = .locked ∧ q.state = .suspended ∧ q.run = none)
    (hmark : q.markLow = s.sequencer.markLow) (hearly : q.earlyCount = s.sequencer.earlyCount)
    (hlost : q.lostCount = s.sequencer.lostCount ∨ q.lostCount = saturate 65535 s.sequencer.lostCount)
    (hillegal : q.illegalCount = s.sequencer.illegalCount ∨ q.illegalCount = saturate 65535 s.sequencer.illegalCount) :
    Moves s { s with sequencer := q } := by
  have hrun : q.run = s.sequencer.run ∨ q.run = none := by
    rcases hstate with ⟨_, h⟩ | ⟨_, _, h⟩
    · exact .inl h
    · exact .inr h
  refine moves_sequencer hactive (sel_of_run hrun) fun hcycle => ?_
  obtain ⟨_, _, _, he, hl, hi⟩ := id hcycle
  refine cycleSound_suspending hcycle ?_ hmark ?_ ⟨hearly ▸ he, ?_, ?_⟩
  · rcases hstate with ⟨h, _⟩ | h
    · exact .inl h
    · exact .inr h
  · rcases hrun with h | h <;> rw [h]
    · exact id
    · intro hn; cases hn
  · rcases hlost with h | h <;> rw [h]
    · exact hl
    · exact saturate_le hl
  · rcases hillegal with h | h <;> rw [h]
    · exact hi
    · exact saturate_le hi

theorem moves_setLongPulse (long : Bool) (s : State) :
    Moves s { s with sequencer := { s.sequencer with longPulse := long } } :=
  moves_judged (q := { s.sequencer with longPulse := long }) rfl (.inl ⟨rfl, rfl⟩) rfl rfl (.inl rfl) (.inl rfl)

theorem moves_takeIllegal (s : State) : Moves s (takeIllegal s) := by
  rw [takeIllegal_eq]
  unfold countIllegal
  have hcount : Moves s { s with sequencer := { s.sequencer with
      illegalCount := saturate 65535 s.sequencer.illegalCount
      state := if s.sequencer.state = .locked then .suspended else s.sequencer.state
      next := if s.sequencer.state = .locked then none else s.sequencer.next
      run := if s.sequencer.state = .locked then none else s.sequencer.run } } := by
    refine moves_judged rfl ?_ rfl rfl (.inl rfl) (.inr rfl)
    by_cases h : s.sequencer.state = .locked
    · exact .inr ⟨h, if_pos h, if_pos h⟩
    · exact .inl ⟨if_neg h, if_neg h⟩
  exact (hcount.trans (softEq_postCycle _ _).moves).trans (moves_transmit _)

theorem moves_takeMark (sinceStart : Nat) {s : State} (hf : s.sequencer.state.follows = true) :
    Moves s (takeMark sinceStart s) := by
  by_cases hst : s.sequencer.state = .locked
  · rw [takeMark_locked hst]
    split
    · have hstart := startsCycle_written s.sequencer.state (saturate 65535 s.sequencer.earlyCount) s
      exact ((hstart.moves (.inl rfl) saturate_le).trans (softEq_postCycle _ _).moves).trans (moves_transmit _)
    · split
      · exact moves_startCycle s
      · exact .refl
  · rw [takeMark_unlocked (by rcases (follows_iff _).1 hf with h | h | h <;> simp_all)]
    have hstart := startsCycle_written .locked s.sequencer.earlyCount s
    exact ((hstart.moves (.inr ⟨rfl, hf⟩) id).trans (softEq_postCycle _ _).moves).trans (moves_transmit _)

theorem moves_endPulse (width sinceStart : Nat) (s : State) : Moves s (endPulse width sinceStart s) := by
  cases hf : s.sequencer.state.follows with
  | false => rw [endPulse_unwatched hf]; exact .refl
  | true =>
    cases hl : s.sequencer.longPulse with
    | true => rw [endPulse_taken hf hl]; exact moves_setLongPulse false s
    | false =>
      rw [endPulse_fresh hf hl]
      split
      · exact .refl
      · split
        · exact moves_takeIllegal s
        · split
          · exact moves_takeMark _ hf
          · exact .refl

theorem moves_longPulse (s : State) : Moves s (longPulse s) := by
  unfold longPulse
  split
  · exact (moves_setLongPulse true s).trans (moves_takeIllegal _)
  · exact .refl

theorem moves_loseMark (s : State) : Moves s (loseMark s) := by
  unfold loseMark
  split
  · rename_i hst
    have hcount : Moves s (suspend { s with sequencer := { s.sequencer with
        lostCount := saturate 65535 s.sequencer.lostCount } }) :=
      moves_judged (q := { s.sequencer with
        lostCount := saturate 65535 s.sequencer.lostCount, state := .suspended, next := none, run := none })
        rfl (.inr ⟨hst, rfl, rfl⟩) rfl rfl (.inr rfl) (.inl rfl)
    exact (hcount.trans (softEq_postCycle _ _).moves).trans (moves_transmit _)
  · exact .refl

/-! ### A window's run -/

theorem arrive_slot (run : WindowRun) : run.arrive.slot = run.slot := by
  unfold WindowRun.arrive WindowRun.beginAccess WindowRun.beginStrobe
  split
  · split <;> rfl
  · split
    · dsimp only; split <;> rfl
    · rfl

theorem endStrobe_slot (run : WindowRun) : run.endStrobe.slot = run.slot := by
  unfold WindowRun.endStrobe
  dsimp only
  split
  · exact arrive_slot _
  · rfl

theorem endPart_slot (run : WindowRun) : run.endPart.slot = run.slot := by
  unfold WindowRun.endPart
  split
  · rfl
  · split
    · exact endStrobe_slot run
    · rfl
  · exact arrive_slot _
  · rfl

theorem strobeTick_slot (rdyHigh : Bool) (run : WindowRun) : (run.strobeTick rdyHigh).slot = run.slot := by
  unfold WindowRun.strobeTick
  split
  · rfl
  · split
    · exact endStrobe_slot run
    · split <;> rfl

theorem begin_slot (w : ActiveWindow) : (WindowRun.begin w).slot = w.slot := arrive_slot _

theorem cycleSound_run {s : State} (h : s.cycleSound) (next : Option Nat) (run : Option WindowRun)
    (hrun : run.isSome → s.sequencer.run.isSome ∨ s.sequencer.state.trusted = true) :
    ({ s with sequencer := { s.sequencer with next := next, run := run } } : State).cycleSound := by
  obtain ⟨hmode, hlow, hruns, hcounts⟩ := h
  refine ⟨hmode, hlow, fun hr => ?_, hcounts⟩
  rcases hrun hr with h | h
  · exact hruns h
  · exact h

theorem moves_updRun {f : WindowRun → WindowRun} (hf : ∀ run, (f run).slot = run.slot) (s : State) :
    Moves s (updRun f s) := by
  refine moves_sequencer (q := { s.sequencer with run := s.sequencer.run.map f }) rfl (fun i hi => ?_) fun hcycle => ?_
  · unfold State.sel at hi ⊢
    dsimp only at hi
    cases hr : s.sequencer.run with
    | none => rw [hr] at hi; cases hi
    | some run =>
      rw [hr] at hi
      simp only [Option.map_some, hf] at hi
      exact hi
  · exact cycleSound_run hcycle s.sequencer.next _ fun hr => .inl (by simpa using hr)

/-- SEL is asserted for the slot of an unmuted window of the active plan that is RUNNING. -/
theorem moves_startWindow (s : State) : Moves s (startWindow s) := by
  unfold startWindow
  split
  · rename_i k hnext hnone
    split
    · exact .refl
    · rename_i w hw
      dsimp only
      have hmove : ∀ run : Option WindowRun, (∀ r, run = some r → r.slot = w.slot ∧ w.muted = false ∧
          (s.slot w.slot).state = .running ∧ s.sequencer.state.trusted = true) →
          Moves s { s with sequencer := { s.sequencer with next := some (k + 1), run := run } } := by
        intro run hrun
        have hmicro : Micro s { s with sequencer := { s.sequencer with next := some (k + 1), run := run } } := by
          refine .sequencer (.refl s) (fun _ hsel => ⟨hsel.1, fun i hi => ?_⟩) fun hcycle => ?_
          · unfold State.sel at hi
            dsimp only at hi
            cases hr : run with
            | none => rw [hr] at hi; cases hi
            | some r =>
              rw [hr] at hi
              obtain ⟨hslot, hmuted, hstate, _⟩ := hrun r hr
              have hi' : r.slot = i := of_decide_eq_true hi
              rw [← hi', hslot]
              refine ⟨hstate, ?_⟩
              exact List.any_eq_true.2 ⟨w, List.mem_of_getElem? hw, by simp [hmuted]⟩
          · refine cycleSound_run hcycle (some (k + 1)) run fun hr => .inr ?_
            obtain ⟨r, hr⟩ := Option.isSome_iff_exists.1 hr
            exact (hrun r hr).2.2.2
        exact hmicro.calm rfl fun _ hb => hb
      refine hmove _ fun r hr => ?_
      split at hr
      · rename_i hruns
        cases hr
        simp only [Bool.and_eq_true, Bool.not_eq_true', decide_eq_true_eq] at hruns
        obtain ⟨⟨hmuted, hstate⟩, htrusted⟩ := hruns
        exact ⟨begin_slot w, hmuted, hstate, htrusted⟩
      · cases hr
  · exact .refl

theorem moves_reachGap (s : State) : Moves s (reachGap s) := by
  unfold reachGap
  split
  · exact .refl
  · dsimp only
    have hended : Moves s { s with sequencer := { s.sequencer with run := none } } :=
      moves_sequencer (q := { s.sequencer with run := none }) rfl (sel_of_run (.inr rfl)) fun hcycle =>
        cycleSound_run hcycle s.sequencer.next none fun hr => absurd hr Bool.false_ne_true
    exact hended.trans (softEq_updSlot (Slot.alike_soft ..)).moves

/-! ### Every event -/

/-- What a running machine does in an event. -/
theorem turns_event {f : State → State} (h : Event f) (s : State) : Turns s (f s) := by
  cases h with
  | host kind tag hact => exact (moves_takeCommand kind tag hact s).turns
  | restartSent => exact (moves_restartSent s).turns
  | endFrame b => exact (moves_endFrame b s).turns
  | takeByte b => exact (moves_takeByte b s).turns
  | abortGap => exact (moves_abortGap s).turns
  | endSending => exact (moves_endSending s).turns
  | transmit => exact (moves_transmit s).turns
  | expireDebounce i contact => exact turns_expireDebounce i contact s
  | expireCooldown i => exact (moves_expireCooldown i s).turns
  | expireSettle i => exact (moves_expireSettle i s).turns
  | completeJob how => exact (moves_completeJob how s).turns
  | timeOutByte late => exact (moves_timeOutByte late s).turns
  | takeNextCompletion i => exact (moves_takeNextCompletion i s).turns
  | expireConsent i => exact (moves_expireConsent i s).turns
  | sampleFrame f => exact (moves_sampleFrame f s).turns
  | takeNextFrame i => exact (moves_takeNextFrame i s).turns
  | expireRamp i => exact (moves_expireRamp i s).turns
  | expireResetHold i => exact (moves_expireResetHold i s).turns
  | expirePoll i => exact (moves_expirePoll i s).turns
  | expireReady i => exact (moves_expireReady i s).turns
  | takeNextAnnouncement i => exact (moves_takeNextAnnouncement i s).turns
  | beginMark => exact (moves_beginMark s).turns
  | endMark => exact (moves_endMark s).turns
  | endPulse width sinceStart => exact (moves_endPulse width sinceStart s).turns
  | longPulse => exact (moves_longPulse s).turns
  | loseMark => exact (moves_loseMark s).turns
  | takeAdoption i => exact (moves_takeAdoption i s).turns
  | startWindow => exact (moves_startWindow s).turns
  | endPart => exact (moves_updRun endPart_slot s).turns
  | strobeTick rdyHigh => exact (moves_updRun (strobeTick_slot rdyHigh) s).turns
  | reachGap => exact (moves_reachGap s).turns
  | takeNextOutcome i => exact (moves_takeNextOutcome i s).turns
  | recorderFrame => exact (moves_recorderFrame s).turns
  | arriveTrigger t => exact (moves_arriveTrigger t s).turns
  | traceIn => exact (softEq_presentTrigger _ s).moves.turns
  | endTracePulse => exact (moves_setRecorder _ s).turns
  | arriveReport i => exact (moves_arriveReport i s).turns
  | expireTail => exact (moves_expireTail s).turns

end Sys2Proof.Machine
end

section
/-!
PROOF. A turn is no reset: what every turn outside RESET keeps, every step keeps that the resets keep.
-/
namespace Sys2Proof.Machine

/-! ### A turn does not reset -/

theorem dropBlocks_slot (i j : SlotId) (s : State) : (dropBlocks i s).slot j = s.slot j := rfl

theorem Micro.inReset {s t : State} (h : Micro s t) : t.inReset = s.inReset := by
  cases h with
  | soft h => exact h.blocks.inReset
  | enters i st r a results T _ _ _ _ h => exact h.blocks.inReset
  | amends i a results _ _ h => exact h.blocks.inReset
  | drops i st r a T _ _ _ h => exact (changes_drop h).blocks.inReset
  | grants e rest _ _ _ => exact (changes_grant e rest s).blocks.inReset
  | places i plan _ _ => exact (changes_place i plan s).blocks.inReset
  | waits i _ _ => exact (changes_wait i s).blocks.inReset
  | ramps i T _ _ h => exact h.blocks.inReset
  | advances i st r T _ _ h => exact h.blocks.inReset
  | times i T _ h => exact h.blocks.inReset
  | pins i n _ _ _ h => exact h.blocks.inReset
  | configures i n r _ _ h => exact h.blocks.inReset
  | unpins i n _ h => exact h.blocks.inReset
  | joins i plan _ _ => exact (changes_join i plan s).blocks.inReset
  | rooms i _ => exact (changes_room i s).blocks.inReset
  | runs i _ h => exact h.blocks.inReset
  | power v _ _ => rfl
  | cycle v _ _ _ _ _ _ _ _ _ _ h => exact h.blocks.inReset
  | sets h _ => exact h.blocks.inReset
  | sequencer h _ _ => exact h.blocks.inReset

theorem refuseQueued_inReset (q : List PowerEntry) : ∀ s : State, (refuseQueued q s).inReset = s.inReset := by
  induction q with
  | nil => exact fun _ => rfl
  | cons e q ih =>
    intro s
    rw [refuseQueued, ih]
    split
    · simp
    · rfl

theorem Smalls.inReset {s t : State} (h : Smalls s t) : t.inReset = s.inReset := by
  induction h with
  | refl => rfl
  | tail _ h ih =>
    refine Eq.trans ?_ ih
    cases h with
    | micro h => exact h.inReset
    | walks => exact walkRoom_inReset _
    | refuses => exact refuseQueued_inReset _ _

theorem Turn.inReset {s t : State} (h : Turn s t) : t.inReset = s.inReset := by
  cases h with
  | move h => exact h.smalls.inReset
  | contacts i _ h => exact h.blocks.inReset

/-- A property that every turn outside RESET keeps, that does not speak of the queue of commands, and that the resets and
the pins of a part in RESET keep, is kept by every step. -/
theorem turns_keep {P : State → Prop} (queue : ∀ s q, P s → P (s.withPending q))
    (turn : ∀ s t, s.inReset = false → Turn s t → P s → P t)
    (cold : ∀ rateHigh s, P s → P (endReset rateHigh s)) (reset : ∀ s, P s → P (assertReset s))
    (pin : ∀ i contact made s, s.inReset = true → P s → P (s.updSlot i fun c => c.setRaw contact made)) :
    ∀ s t, P s → step s = .next t → P t := by
  have turns : ∀ {s t}, Turns s t → s.inReset = false → P s → P t ∧ t.inReset = false := by
    intro s t h hlive hs
    induction h with
    | refl => exact ⟨hs, hlive⟩
    | tail _ h ih => exact ⟨turn _ _ ih.2 h ih.1, h.inReset.trans ih.2⟩
  exact step_keeps queue (fun f hf s hlive hs => (turns (turns_event hf s) hlive hs).1) cold reset pin
    fun i contact made s hlive _ hs =>
      (turns ((moves_catchUpIf _ i s).turns.trans (turns_changeContact i contact made _)) hlive hs).1

end Sys2Proof.Machine
end

section
/-!
PROOF. What a slot keeps by itself: its lines, its timers and its contacts; and the sequencer in its mode.
-/
namespace Sys2Proof.Machine

/-- A relation of slot records that likeness gives holds of every slot where it holds of the changed one. -/
theorem Changes.forEach {Q : Slot → Slot → Prop} {i : SlotId} {g : Slot → Slot} {u t : State} (h : Changes i g u t)
    (alike : ∀ c d : Slot, c.Alike d → Q c d) (self : ∀ d : Slot, (g (u.slot i)).Alike d → Q (u.slot i) d) (j : SlotId) :
    Q (u.slot j) (t.slot j) := by
  by_cases hj : j = i
  · subst hj; exact self _ h.self
  · exact alike _ _ (h.others j hj)

/-- A slot whose lines and timers follow its state goes on so. -/
def Slot.KeepsForm (c d : Slot) : Prop := (c.linesFollow → d.linesFollow) ∧ (c.timersFollow → d.timersFollow)

theorem Slot.KeepsForm.refl (c : Slot) : c.KeepsForm c := ⟨id, id⟩

theorem Slot.KeepsForm.trans {a b c : Slot} (h1 : a.KeepsForm b) (h2 : b.KeepsForm c) : a.KeepsForm c :=
  ⟨h2.1 ∘ h1.1, h2.2 ∘ h1.2⟩

theorem Slot.linesFollow_congr {c d : Slot} (hstate : d.state = c.state)
    (hlines : d.stbyEn = c.stbyEn ∧ d.mainEn = c.mainEn ∧ d.cardRst = c.cardRst ∧ (d.standby = .off ↔ c.standby = .off))
    (h : c.linesFollow) : d.linesFollow := by
  obtain ⟨hs, hm, hr, hb⟩ := hlines
  unfold Slot.linesFollow at h ⊢
  rw [hstate, hs, hm, hr, hb]
  exact h

theorem Slot.timersFollow_congr {c d : Slot} (hstate : d.state = c.state) (htimers : d.timers = c.timers)
    (h : c.timersFollow) : d.timersFollow := by
  unfold Slot.timersFollow at h ⊢
  rw [hstate, htimers]
  exact h

theorem Slot.Alike.keepsForm {c d : Slot} (h : c.Alike d) : c.KeepsForm d :=
  ⟨Slot.linesFollow_congr h.state h.lines, Slot.timersFollow_congr h.state h.timers⟩

/-- A change that keeps the form, and what is like its result. -/
theorem Slot.Alike.keepsForm_of {a c d : Slot} (hd : c.Alike d) (hlines : a.linesFollow → c.linesFollow)
    (htimers : a.timersFollow → c.timersFollow) : a.KeepsForm d :=
  Slot.KeepsForm.trans ⟨hlines, htimers⟩ hd.keepsForm

/-- The entry of a state sets the lines and the timers, whatever they were. -/
theorem Slot.keepsForm_enter {a c d : Slot} {st : SlotState} {r : Reason} {T : StateTimers} (hT : T.Fits st)
    (hd : ({ c.enter st r with timers := T } : Slot).Alike d) : a.KeepsForm d :=
  hd.keepsForm_of (fun _ => enter_linesFollow c st r) fun _ => hT

theorem Slot.keepsForm_enter_idle {a c d : Slot} {st : SlotState} {r : Reason} (h : st.timed = false)
    (hd : (c.enter st r).Alike d) : a.KeepsForm d :=
  Slot.keepsForm_enter (c := c) (r := r) (idle_fits h) hd

/-- A change that leaves the state, the lines and the timers. -/
theorem Slot.keepsForm_beside {a c d : Slot} (hstate : c.state = a.state) (htimers : c.timers = a.timers)
    (hlines : c.stbyEn = a.stbyEn ∧ c.mainEn = a.mainEn ∧ c.cardRst = a.cardRst ∧ c.standby = a.standby)
    (hd : c.Alike d) : a.KeepsForm d := by
  obtain ⟨hs, hm, hr, hb⟩ := hlines
  exact hd.keepsForm_of (Slot.linesFollow_congr hstate ⟨hs, hm, hr, by rw [hb]⟩) (Slot.timersFollow_congr hstate htimers)

theorem Micro.keepsForm {s t : State} (h : Micro s t) (j : SlotId) : (s.slot j).KeepsForm (t.slot j) := by
  have halike : ∀ c d : Slot, c.Alike d → c.KeepsForm d := fun _ _ => Slot.Alike.keepsForm
  cases h with
  | soft h => exact (h.slots j).keepsForm
  | enters i st r a results T _ _ _ hT h => exact h.forEach halike (fun _ => Slot.keepsForm_enter hT) j
  | amends i a results _ _ h =>
    exact h.forEach halike (fun _ => Slot.keepsForm_beside rfl rfl ⟨rfl, rfl, rfl, rfl⟩) j
  | drops i st r a T _ _ hT h => exact (changes_drop h).forEach halike (fun _ => Slot.keepsForm_enter hT) j
  | grants e rest _ _ _ =>
    refine (changes_grant e rest s).forEach halike (fun _ hd => hd.keepsForm_of (fun _ => ?_) fun _ => ?_) j
    · exact enter_linesFollow (s.slot e.slot) .powering .none
    · simp [Slot.timersFollow, Slot.enter, StateTimers.idle]
  | places i plan _ _ => exact (changes_place i plan s).forEach halike (fun _ => Slot.keepsForm_enter_idle rfl) j
  | waits i _ _ => exact (changes_wait i s).forEach halike (fun _ => Slot.keepsForm_enter_idle rfl) j
  | ramps i T _ hT h =>
    exact h.forEach halike (fun _ hd =>
      hd.keepsForm_of (fun _ => enter_linesFollow (s.slot i) .resetHold .none) fun _ => hT) j
  | advances i st r T _ hT h => exact h.forEach halike (fun _ => Slot.keepsForm_enter hT) j
  | times i T hT h =>
    exact h.forEach halike (fun _ hd => hd.keepsForm_of id hT) j
  | pins i n _ _ _ h => exact h.forEach halike (fun _ => Slot.keepsForm_beside rfl rfl ⟨rfl, rfl, rfl, rfl⟩) j
  | configures i n r _ _ h =>
    exact h.forEach halike (fun _ hd => hd.keepsForm_of (fun _ => enter_linesFollow (s.slot i) .configuring r)
      fun _ => enter_timersFollow (s.slot i) .configuring r rfl) j
  | unpins i n _ h => exact h.forEach halike (fun _ => Slot.keepsForm_beside rfl rfl ⟨rfl, rfl, rfl, rfl⟩) j
  | joins i plan _ _ => exact (changes_join i plan s).forEach halike (fun _ => Slot.keepsForm_enter_idle rfl) j
  | rooms i _ => exact (changes_room i s).forEach halike (fun _ => Slot.keepsForm_enter_idle rfl) j
  | runs i _ h => exact h.forEach halike (fun _ => Slot.keepsForm_enter_idle rfl) j
  | power v _ _ =>
    unfold recomputeThresholds
    rw [slot_mapSlots]
    exact .refl _
  | cycle v _ _ _ _ _ _ _ _ _ _ h => exact (h.slots j).keepsForm
  | sets h _ => exact (h.slots j).keepsForm
  | sequencer h _ _ => exact (h.slots j).keepsForm

theorem walkFrom_keepsForm (q : List SlotId) (j : SlotId) : ∀ s : State, (s.slot j).KeepsForm ((walkFrom q s).slot j) := by
  have halike : ∀ c d : Slot, c.Alike d → c.KeepsForm d := fun _ _ => Slot.Alike.keepsForm
  induction q with
  | nil => exact fun _ => .refl _
  | cons i q ih =>
    intro s
    unfold walkFrom
    split
    · rename_i plan _
      exact ((changes_place i plan s).forEach halike (fun _ => Slot.keepsForm_enter_idle rfl) j).trans (ih _)
    · exact ih s

theorem refuseQueued_keepsForm (q : List PowerEntry) (j : SlotId) :
    ∀ s : State, (s.slot j).KeepsForm ((refuseQueued q s).slot j) := by
  have halike : ∀ c d : Slot, c.Alike d → c.KeepsForm d := fun _ _ => Slot.Alike.keepsForm
  induction q with
  | nil => exact fun _ => .refl _
  | cons e q ih =>
    intro s
    unfold refuseQueued
    split
    · refine Slot.KeepsForm.trans ?_ (ih _)
      exact (changes_refuse e.slot s).forEach halike (fun _ => Slot.keepsForm_enter (idle_fits rfl)) j
    · exact ih s

theorem Smalls.keepsForm {s t : State} (h : Smalls s t) (j : SlotId) : (s.slot j).KeepsForm (t.slot j) := by
  induction h with
  | refl => exact .refl _
  | tail _ h ih =>
    refine ih.trans ?_
    cases h with
    | micro h => exact h.keepsForm j
    | walks => exact walkFrom_keepsForm _ j _
    | refuses => exact refuseQueued_keepsForm _ j _

theorem Turn.keepsForm {s t : State} (h : Turn s t) (j : SlotId) : (s.slot j).KeepsForm (t.slot j) := by
  cases h with
  | move h => exact h.smalls.keepsForm j
  | contacts i _ h =>
    exact h.forEach (fun _ _ => Slot.Alike.keepsForm) (fun _ => Slot.keepsForm_beside rfl rfl ⟨rfl, rfl, rfl, rfl⟩) j

/-! ### The resets -/

theorem slot_endReset (rateHigh : Bool) (s : State) (i : SlotId) : (endReset rateHigh s).slot i = (s.slot i).wake :=
  slot_mapSlots { State.reset with
    pending := s.pending, slots := s.slots
    link := Link.reset (if rateHigh then .rate921600 else .rate115200) } Slot.wake i

theorem slot_assertReset (s : State) (i : SlotId) : (assertReset s).slot i = (s.slot i).cut := by
  unfold assertReset
  exact slot_mapSlots { s with
    inReset := true
    engine := { s.engine with current := none }
    sequencer := { s.sequencer with markLow := false, run := none }
    recorder := { s.recorder with traceOutLow := false }
    link := { s.link with tx := none, receiver := .hunting } } Slot.cut i

theorem slot_setRaw (i : SlotId) (contact : Contact) (made : Bool) (s : State) (j : SlotId) : ∃ early late,
    (s.updSlot i fun c => c.setRaw contact made).slot j = { s.slot j with earlyRaw := early, lateRaw := late } := by
  by_cases hj : j = i
  · subst hj
    rw [slot_updSlot_self]
    cases contact <;> exact ⟨_, _, rfl⟩
  · rw [slot_updSlot_ne _ _ hj]
    exact ⟨_, _, rfl⟩

/-! ### Lines, timers and contacts -/

theorem linesSound_live {s : State} (h : s.inReset = false) : s.linesSound ↔ ∀ i, (s.slot i).linesFollow := by
  unfold State.linesSound; rw [h]; exact .rfl

theorem linesSound_reset {s : State} (h : s.inReset = true) : s.linesSound ↔ (∀ i, (s.slot i).linesReleased) ∧
    s.sequencer.run = none ∧ s.sequencer.markLow = false ∧ s.recorder.traceOutLow = false ∧ s.link.tx = none := by
  unfold State.linesSound; rw [h]; exact .rfl

/-- Settles O5: outside RESET every entry of a state sets the lines of 01 R4; RESET releases them. -/
theorem stepKeepsLinesByState : Obligations.StepKeepsLinesByState := by
  refine turns_keep (P := State.linesSound) (fun _ _ h => h) (fun s t hlive h hs => ?_) (fun rateHigh s _ => ?_)
    (fun s _ => ?_) fun i contact made s hreset hs => ?_
  · rw [linesSound_live hlive] at hs
    rw [linesSound_live (h.inReset.trans hlive)]
    exact fun i => (h.keepsForm i).1 (hs i)
  · rw [linesSound_live rfl]
    intro i
    rw [slot_endReset]
    simp [Slot.linesFollow, Slot.wake, Slot.reset, SlotState.standbyOn, SlotState.mainOn, SlotState.cardReset]
  · rw [linesSound_reset rfl]
    refine ⟨fun i => ?_, rfl, rfl, rfl, rfl⟩
    rw [slot_assertReset]
    exact ⟨rfl, rfl, rfl, rfl⟩
  · rw [linesSound_reset hreset] at hs
    refine (linesSound_reset (s := s.updSlot i fun c => c.setRaw contact made) hreset).2 ?_
    obtain ⟨hslots, hrest⟩ := hs
    refine ⟨fun j => ?_, hrest⟩
    obtain ⟨early, late, hj⟩ := slot_setRaw i contact made s j
    rw [hj]
    exact hslots j

/-- Whether a contact follows its raw input depends on the contacts alone. -/
theorem Slot.follows_congr {c d : Slot} (h : d.contactFields = c.contactFields) {contact : Contact}
    (hc : c.Follows contact) : d.Follows contact := by
  simp only [Slot.contactFields, Prod.mk.injEq] at h
  obtain ⟨hearly, hlate, hearlyRaw, hlateRaw, hdebounceEarly, hdebounceLate⟩ := h
  cases contact
  · exact hc.congr hdebounceEarly hearlyRaw hearly
  · exact hc.congr hdebounceLate hlateRaw hlate

theorem Turn.follows {s t : State} (h : Turn s t) (j : SlotId) {contact : Contact} (hj : (s.slot j).Follows contact) :
    (t.slot j).Follows contact := by
  cases h with
  | move h => exact Slot.follows_congr (h.smalls.sameContacts j) hj
  | contacts i hfollows h =>
    by_cases hji : j = i
    · subst hji; exact hfollows contact hj
    · exact Slot.follows_congr (h.others j hji).contactFields hj

/-- Settles O6: an entry starts the timers of its state and ends the others; a contact's timer follows its raw input. -/
theorem stepKeepsTimersAndDebounce : Obligations.StepKeepsTimersAndDebounce := by
  constructor
  · refine turns_keep (P := State.timersSound) (fun _ _ h => h) (fun s t _ h hs i => (h.keepsForm i).2 (hs i))
      (fun rateHigh s _ i => ?_) (fun s hs i => ?_) fun i contact made s _ hs j => ?_
    · rw [slot_endReset]
      simp [Slot.timersFollow, Slot.wake, Slot.reset, StateTimers.idle]
    · rw [slot_assertReset]
      exact hs i
    · obtain ⟨early, late, hj⟩ := slot_setRaw i contact made s j
      rw [hj]
      exact hs j
  · refine turns_keep (P := State.contactsSound) (fun _ _ h => h) (fun s t hlive h hs _ => ?_) (fun rateHigh s _ _ i => ?_)
      (fun s _ h => ?_) fun i contact made s hreset _ h => ?_
    · exact fun j contact => h.follows j (hs hlive j contact)
    · intro contact
      rw [slot_endReset]
      cases contact <;> simp [Slot.wake, Slot.reset, Slot.debounceTimer, Slot.raw, Slot.debounced]
    · cases h
    · rw [updSlot_inReset, hreset] at h; cases h

/-! ### The sequencer in its mode -/

/-- The sequencer stays in its mode where only the window in progress may end. -/
theorem cycleSound_mono {s t : State} (h : s.cycleSound) (hmode : t.planner.settings.mode = s.planner.settings.mode)
    (hseq : ∃ active run, t.sequencer = { s.sequencer with active := active, run := run } ∧
      (run.isSome → s.sequencer.run.isSome)) : t.cycleSound := by
  obtain ⟨active, run, hseq, hrun⟩ := hseq
  obtain ⟨hstate, hlow, hruns, hcounts⟩ := h
  unfold State.cycleSound
  rw [hmode, hseq]
  exact ⟨hstate, hlow, fun hr => hruns (hrun hr), hcounts⟩

theorem cycleSound_same {s t : State} (h : s.cycleSound) (hmode : t.planner.settings.mode = s.planner.settings.mode)
    (hseq : t.sequencer = s.sequencer) : t.cycleSound :=
  cycleSound_mono h hmode ⟨s.sequencer.active, s.sequencer.run, by rw [hseq], id⟩

theorem cycleSound_blocks {s t : State} (h : s.cycleSound) (hb : SameBlocks s t) : t.cycleSound :=
  cycleSound_same h (by rw [hb.planner]) hb.sequencer

theorem cycleSound_changed {i : SlotId} {g : Slot → Slot} {s u t : State} (hs : s.cycleSound) (h : Changes i g u t)
    (hmode : u.planner.settings.mode = s.planner.settings.mode) (hseq : u.sequencer = s.sequencer) : t.cycleSound :=
  cycleSound_blocks (cycleSound_same hs hmode hseq) h.blocks

theorem isSome_of_filter {α : Type} {p : α → Bool} {o : Option α} (h : (o.filter p).isSome) : o.isSome := by
  cases o with
  | none => cases h
  | some a => rfl

theorem cycleSound_dropBlocks {s : State} (i : SlotId) (h : s.cycleSound) : (dropBlocks i s).cycleSound :=
  cycleSound_mono h rfl ⟨_, _, rfl, isSome_of_filter⟩

theorem Micro.cycleSound {s t : State} (h : Micro s t) (hs : s.cycleSound) : t.cycleSound := by
  cases h with
  | soft h => exact cycleSound_blocks hs h.blocks
  | enters i st r a results T _ _ _ _ h => exact cycleSound_blocks hs h.blocks
  | amends i a results _ _ h => exact cycleSound_blocks hs h.blocks
  | drops i st r a T _ _ _ h => exact cycleSound_blocks (cycleSound_dropBlocks i hs) (changes_drop h).blocks
  | grants e rest _ _ _ => exact cycleSound_changed hs (changes_grant e rest s) rfl rfl
  | places i plan _ _ => exact cycleSound_changed hs (changes_place i plan s) rfl rfl
  | waits i _ _ => exact cycleSound_changed hs (changes_wait i s) rfl rfl
  | ramps i T _ _ h => exact cycleSound_changed hs h rfl rfl
  | advances i st r T _ _ h => exact cycleSound_blocks hs h.blocks
  | times i T _ h => exact cycleSound_blocks hs h.blocks
  | pins i n _ _ _ h => exact cycleSound_changed hs h rfl rfl
  | configures i n r _ _ h => exact cycleSound_changed hs h rfl rfl
  | unpins i n _ h => exact cycleSound_changed hs h rfl rfl
  | joins i plan _ _ => exact cycleSound_changed hs (changes_join i plan s) rfl rfl
  | rooms i _ => exact cycleSound_changed hs (changes_room i s) rfl rfl
  | runs i _ h => exact cycleSound_blocks hs h.blocks
  | power v _ _ => exact hs
  | cycle v _ _ _ _ _ _ _ _ _ h _ => exact h hs
  | sets h _ => exact cycleSound_same hs (congrArg (fun p => p.settings.mode) h.blocks.planner) h.blocks.sequencer
  | sequencer _ _ h => exact h hs

theorem refuseQueued_cycleSound (q : List PowerEntry) : ∀ s : State, s.cycleSound → (refuseQueued q s).cycleSound := by
  induction q with
  | nil => exact fun _ hs => hs
  | cons e q ih =>
    intro s hs
    unfold refuseQueued
    split
    · exact ih _ (cycleSound_blocks (cycleSound_dropBlocks e.slot hs) (changes_refuse e.slot s).blocks)
    · exact ih s hs

theorem Smalls.cycleSound {s t : State} (h : Smalls s t) (hs : s.cycleSound) : t.cycleSound := by
  induction h with
  | refl => exact hs
  | tail _ h ih =>
    cases h with
    | micro h => exact h.cycleSound ih
    | walks => exact cycleSound_same ih (by rw [walkRoom_settings]) (walkRoom_sequencer _)
    | refuses => exact refuseQueued_cycleSound _ _ ih

/-- Settles O13: the moves keep the sequencer in its mode, and the resets stop it. -/
theorem stepKeepsSequencerInMode : Obligations.StepKeepsSequencerInMode := by
  refine turns_keep (P := State.cycleSound) (fun _ _ h => h) (fun s t _ h hs => ?_) (fun rateHigh s _ => ?_)
    (fun s hs => ?_) fun i contact made s _ hs => hs
  · cases h with
    | move h => exact h.smalls.cycleSound hs
    | contacts i _ h => exact cycleSound_blocks hs h.blocks
  · exact ⟨rfl, fun h => absurd h Bool.false_ne_true, fun h => absurd h Bool.false_ne_true,
      Nat.zero_le _, Nat.zero_le _, Nat.zero_le _⟩
  · obtain ⟨hmode, _, _, hcounts⟩ := hs
    exact ⟨hmode, fun h => absurd h Bool.false_ne_true, fun h => absurd h Bool.false_ne_true, hcounts⟩

end Sys2Proof.Machine
end

section
/-!
PROOF. The queues hold the slots that wait in them (05 R90, 08 R143), and with them a walk and a refusal are small moves.
-/
namespace Sys2Proof.Machine

/-! ### The core of a slot -/

/-- What the safety properties of the blocks speak of in a slot. -/
structure Slot.SameCore (c d : Slot) : Prop where
  state : d.state = c.state
  allowance : d.allowance = c.allowance
  screening : d.screening = c.screening
  grant : d.grant = c.grant
  pin : d.pin = c.pin
  threshold : d.threshold = c.threshold

theorem Slot.Alike.sameCore {c d : Slot} (h : c.Alike d) : c.SameCore d :=
  ⟨h.state, h.allowance, h.screening, h.grant, h.pin, h.threshold⟩

theorem Slot.SameCore.power {c d : Slot} (h : c.SameCore d) : d.power = c.power := by
  unfold Slot.power; rw [h.screening]

/-- Two states that agree on their blocks and on the cores of their slots. -/
structure CoreEq (s t : State) : Prop where
  blocks : SameBlocks s t
  slots : ∀ j, (s.slot j).SameCore (t.slot j)

theorem SoftEq.coreEq {s t : State} (h : SoftEq s t) : CoreEq s t := ⟨h.blocks, fun j => (h.slots j).sameCore⟩

theorem Changes.coreEq {i : SlotId} {g : Slot → Slot} {u t : State} (h : Changes i g u t) : CoreEq (u.updSlot i g) t :=
  h.softEq.coreEq

/-- A change beside the core. -/
theorem Changes.coreEq_beside {i : SlotId} {g : Slot → Slot} {u t : State} (h : Changes i g u t)
    (hg : (u.slot i).SameCore (g (u.slot i))) : CoreEq u t := by
  refine ⟨h.blocks, fun j => ?_⟩
  by_cases hj : j = i
  · subst hj
    have hs := h.self.sameCore
    exact ⟨hs.state.trans hg.state, hs.allowance.trans hg.allowance, hs.screening.trans hg.screening,
      hs.grant.trans hg.grant, hs.pin.trans hg.pin, hs.threshold.trans hg.threshold⟩
  · exact (h.others j hj).sameCore

/-! ### The queues -/

theorem queuesSound_congr {s t : State} (h : CoreEq s t) (hs : s.queuesSound) : t.queuesSound := by
  obtain ⟨hq, hr, hmem⟩ := hs
  unfold State.queuesSound
  rw [h.blocks.arbiter, h.blocks.planner]
  refine ⟨hq, hr, fun i => ?_⟩
  rw [(h.slots i).state]
  exact hmem i

/-- The queues after a change of one slot, and of its places alone. -/
theorem queuesSound_changed {i : SlotId} {g : Slot → Slot} {s u t : State} (hs : s.queuesSound) (h : Changes i g u t)
    (hslots : ∀ j, u.slot j = s.slot j) (hq : (u.arbiter.queue.map PowerEntry.slot).Nodup) (hr : u.planner.room.Nodup)
    (hothers : ∀ j, j ≠ i → (j ∈ u.arbiter.queue.map PowerEntry.slot ↔ j ∈ s.arbiter.queue.map PowerEntry.slot) ∧
      (j ∈ u.planner.room ↔ j ∈ s.planner.room))
    (hself : (i ∈ u.arbiter.queue.map PowerEntry.slot ↔ (g (s.slot i)).state = .powerWait) ∧
      (i ∈ u.planner.room ↔ (g (s.slot i)).state = .roomWait)) : t.queuesSound := by
  refine queuesSound_congr h.coreEq ⟨hq, hr, fun j => ?_⟩
  by_cases hj : j = i
  · subst hj
    rw [slot_updSlot_self, hslots]
    exact hself
  · rw [slot_updSlot_ne _ _ hj, hslots]
    exact ⟨(hothers j hj).1.trans (hs.2.2 j).1, (hothers j hj).2.trans (hs.2.2 j).2⟩

/-- A slot whose state neither was nor becomes a waiting one. -/
theorem queuesSound_elsewhere {i : SlotId} {g : Slot → Slot} {s u t : State} (hs : s.queuesSound) (h : Changes i g u t)
    (hslots : ∀ j, u.slot j = s.slot j) (hqueue : u.arbiter.queue = s.arbiter.queue) (hroom : u.planner.room = s.planner.room)
    (hold : (s.slot i).state ≠ .powerWait ∧ (s.slot i).state ≠ .roomWait)
    (hnew : (g (s.slot i)).state ≠ .powerWait ∧ (g (s.slot i)).state ≠ .roomWait) : t.queuesSound := by
  obtain ⟨hq, hr, hmem⟩ := id hs
  refine queuesSound_changed hs h hslots (hqueue ▸ hq) (hroom ▸ hr) (fun j _ => by rw [hqueue, hroom]; exact ⟨.rfl, .rfl⟩) ?_
  rw [hqueue, hroom]
  exact ⟨iff_of_false (fun hm => hold.1 ((hmem i).1.1 hm)) hnew.1, iff_of_false (fun hm => hold.2 ((hmem i).2.1 hm)) hnew.2⟩

/-- A slot whose state stands. -/
theorem queuesSound_stays {i : SlotId} {g : Slot → Slot} {s u t : State} (hs : s.queuesSound) (h : Changes i g u t)
    (hslots : ∀ j, u.slot j = s.slot j) (hqueue : u.arbiter.queue = s.arbiter.queue) (hroom : u.planner.room = s.planner.room)
    (hstate : (g (s.slot i)).state = (s.slot i).state) : t.queuesSound := by
  obtain ⟨hq, hr, hmem⟩ := id hs
  refine queuesSound_changed hs h hslots (hqueue ▸ hq) (hroom ▸ hr) (fun j _ => by rw [hqueue, hroom]; exact ⟨.rfl, .rfl⟩) ?_
  rw [hqueue, hroom, hstate]
  exact hmem i

theorem ne_waits {st : SlotState} (h : st.parkable = false) : st ≠ .powerWait ∧ st ≠ .roomWait := by
  constructor
  · rintro rfl; cases h
  · rintro rfl; cases h

theorem mem_filter_ne {i j : SlotId} {q : List PowerEntry} :
    j ∈ (q.filter fun e => decide (e.slot ≠ i)).map PowerEntry.slot ↔ j ∈ q.map PowerEntry.slot ∧ j ≠ i := by
  simp only [List.mem_map, List.mem_filter, decide_eq_true_eq]
  constructor
  · rintro ⟨e, ⟨he, hi⟩, rfl⟩
    exact ⟨⟨e, he, rfl⟩, hi⟩
  · rintro ⟨⟨e, he, rfl⟩, hi⟩
    exact ⟨e, ⟨he, hi⟩, rfl⟩

theorem nodup_map_filter {q : List PowerEntry} (h : (q.map PowerEntry.slot).Nodup) (p : PowerEntry → Bool) :
    ((q.filter p).map PowerEntry.slot).Nodup :=
  (List.filter_sublist.map _).nodup h

theorem queuesSound_drop {i : SlotId} {g : Slot → Slot} {s t : State} (hs : s.queuesSound)
    (h : Changes i g (dropBlocks i s) t) (hg : (g (s.slot i)).state.parkable = false) : t.queuesSound := by
  obtain ⟨hq, hr, _⟩ := id hs
  have hnew := ne_waits hg
  refine queuesSound_changed hs h (fun _ => rfl) (nodup_map_filter hq _) (hr.filter _) (fun j hj => ⟨?_, ?_⟩) ⟨?_, ?_⟩
  · exact mem_filter_ne.trans (and_iff_left hj)
  · exact List.mem_filter.trans (and_iff_left (by simpa using hj))
  · exact iff_of_false (fun hm => (mem_filter_ne.1 hm).2 rfl) hnew.1
  · exact iff_of_false (fun hm => by simpa using (List.mem_filter.1 hm).2) hnew.2

theorem Micro.queuesSound {s t : State} (h : Micro s t) (hs : s.queuesSound) : t.queuesSound := by
  obtain ⟨hq, hr, hmem⟩ := id hs
  have hslots : ∀ j, s.slot j = s.slot j := fun _ => rfl
  cases h with
  | soft h => exact queuesSound_congr h.coreEq hs
  | enters i st r a results T hold hnew _ _ h =>
    exact queuesSound_elsewhere hs h hslots rfl rfl (ne_waits hold) (ne_waits hnew)
  | amends i a results _ _ h => exact queuesSound_stays hs h hslots rfl rfl rfl
  | drops i st r a T hnew _ _ h => exact queuesSound_drop hs (changes_drop h) hnew
  | grants e rest hqueue _ _ =>
    rw [hqueue, List.map_cons, List.nodup_cons] at hq
    refine queuesSound_changed hs (changes_grant e rest s) (fun _ => rfl) hq.2 hr (fun j hj => ⟨?_, .rfl⟩) ⟨?_, ?_⟩
    · rw [hqueue, List.map_cons, List.mem_cons]
      exact (or_iff_right hj).symm
    · exact iff_of_false hq.1 SlotState.noConfusion
    · have hwait : (s.slot e.slot).state = .powerWait := (hmem e.slot).1.1 (by rw [hqueue]; simp)
      refine iff_of_false (fun hm => ?_) SlotState.noConfusion
      have hroom := (hmem e.slot).2.1 hm
      rw [hwait] at hroom
      cases hroom
  | places i plan hroom _ =>
    refine queuesSound_changed hs (changes_place i plan s) (fun _ => rfl) hq (hr.filter _) (fun j hj => ⟨.rfl, ?_⟩) ⟨?_, ?_⟩
    · exact List.mem_filter.trans (and_iff_left (by simpa using hj))
    · refine iff_of_false (fun hm => ?_) SlotState.noConfusion
      have hwait := (hmem i).2.1 hroom
      rw [(hmem i).1.1 hm] at hwait
      cases hwait
    · exact iff_of_false (fun hm => by simpa using (List.mem_filter.1 hm).2) SlotState.noConfusion
  | waits i hold _ =>
    have hne := ne_waits hold.1
    have hnot : i ∉ s.arbiter.queue.map PowerEntry.slot := fun hm => hne.1 ((hmem i).1.1 hm)
    refine queuesSound_changed hs (changes_wait i s) (fun _ => rfl) ?_ hr (fun j hj => ⟨?_, .rfl⟩) ⟨?_, ?_⟩
    · rw [List.map_append]
      exact List.nodup_append.2 ⟨hq, by simp, fun a ha b hb => by
        simp only [List.map_cons, List.map_nil, List.mem_singleton] at hb
        rw [hb]
        exact fun hab => hnot (hab ▸ ha)⟩
    · rw [List.map_append]
      simp [hj]
    · exact iff_of_true (by rw [List.map_append]; simp) rfl
    · exact iff_of_false (fun hm => hne.2 ((hmem i).2.1 hm)) SlotState.noConfusion
  | ramps i T hold _ h =>
    exact queuesSound_elsewhere hs h (fun _ => rfl) rfl rfl (by rw [hold]; decide) ⟨SlotState.noConfusion, SlotState.noConfusion⟩
  | advances i st r T hst _ h =>
    rcases hst with ⟨hold, rfl⟩ | ⟨hold, rfl⟩
    · exact queuesSound_elsewhere hs h hslots rfl rfl (by rw [hold]; decide) ⟨SlotState.noConfusion, SlotState.noConfusion⟩
    · exact queuesSound_elsewhere hs h hslots rfl rfl (by rw [hold]; decide) ⟨SlotState.noConfusion, SlotState.noConfusion⟩
  | times i T _ h => exact queuesSound_stays hs h hslots rfl rfl rfl
  | pins i n _ _ _ h => exact queuesSound_stays hs h (fun _ => rfl) rfl rfl rfl
  | configures i n r hold _ h =>
    exact queuesSound_elsewhere hs h (fun _ => rfl) rfl rfl (by rw [hold]; decide) ⟨SlotState.noConfusion, SlotState.noConfusion⟩
  | unpins i n _ h => exact queuesSound_stays hs h (fun _ => rfl) rfl rfl rfl
  | joins i plan hold _ =>
    have hne : (s.slot i).state ≠ .powerWait ∧ (s.slot i).state ≠ .roomWait := by
      rcases hold with h | ⟨h, _⟩ <;> rw [h] <;> decide
    exact queuesSound_elsewhere hs (changes_join i plan s) (fun _ => rfl) rfl rfl hne
      ⟨SlotState.noConfusion, SlotState.noConfusion⟩
  | rooms i hold =>
    have hne : (s.slot i).state ≠ .powerWait ∧ (s.slot i).state ≠ .roomWait := by
      rcases hold with h | ⟨h, _⟩ <;> rw [h] <;> decide
    have hnot : i ∉ s.planner.room := fun hm => hne.2 ((hmem i).2.1 hm)
    refine queuesSound_changed hs (changes_room i s) (fun _ => rfl) hq ?_ (fun j hj => ⟨.rfl, ?_⟩) ⟨?_, ?_⟩
    · exact List.nodup_append.2 ⟨hr, by simp, fun a ha b hb => by
        rw [List.mem_singleton.1 hb]
        exact fun hab => hnot (hab ▸ ha)⟩
    · simp [hj]
    · exact iff_of_false (fun hm => hne.1 ((hmem i).1.1 hm)) SlotState.noConfusion
    · exact iff_of_true (by simp) rfl
  | runs i hold h =>
    exact queuesSound_elsewhere hs h hslots rfl rfl (by rw [hold]; decide) ⟨SlotState.noConfusion, SlotState.noConfusion⟩
  | power v _ _ =>
    refine ⟨hq, hr, fun i => ?_⟩
    unfold recomputeThresholds
    rw [slot_mapSlots]
    exact hmem i
  | cycle v _ _ _ _ _ _ hplanner _ _ _ h =>
    have hstate : ∀ i, (t.slot i).state = (s.slot i).state := h.state
    unfold State.queuesSound
    rw [(h.blocks.arbiter : t.arbiter = s.arbiter), hplanner]
    exact ⟨hq, hr, fun i => by rw [hstate]; exact hmem i⟩
  | sets h _ =>
    have hstate : ∀ i, (t.slot i).state = (s.slot i).state := h.state
    unfold State.queuesSound
    rw [(h.blocks.arbiter : t.arbiter = s.arbiter), (h.blocks.planner : t.planner = s.planner)]
    exact ⟨hq, hr, fun i => by rw [hstate]; exact hmem i⟩
  | sequencer h _ _ =>
    have hstate : ∀ i, (t.slot i).state = (s.slot i).state := h.state
    unfold State.queuesSound
    rw [(h.blocks.arbiter : t.arbiter = s.arbiter), (h.blocks.planner : t.planner = s.planner)]
    exact ⟨hq, hr, fun i => by rw [hstate]; exact hmem i⟩

/-! ### The walk and the refusals as small moves -/

/-- Small moves one after another. -/
abbrev Micros : State → State → Prop := Chained Micro

theorem micros_walkFrom (q : List SlotId) : ∀ s : State, q.Nodup → (∀ i ∈ q, i ∈ s.planner.room) → Micros s (walkFrom q s) := by
  induction q with
  | nil => exact fun _ _ _ => .refl
  | cons i q ih =>
    intro s hnodup hroom
    rw [List.nodup_cons] at hnodup
    unfold walkFrom
    split
    · rename_i plan hplan
      refine .head (.places i plan (hroom i (by simp)) hplan) (ih _ hnodup.2 fun j hj => ?_)
      have hji : j ≠ i := fun e => hnodup.1 (e ▸ hj)
      rw [(changes_place i plan s).blocks.planner]
      exact List.mem_filter.2 ⟨hroom j (List.mem_cons_of_mem _ hj), by simpa using hji⟩
    · exact ih s hnodup.2 fun j hj => hroom j (List.mem_cons_of_mem _ hj)

theorem micro_refuse {i : SlotId} {s : State} (hst : (s.slot i).state = .powerWait) :
    Micro s (transition i .refused .powerRange (powerDown i s)) := by
  refine .drops i .refused .powerRange (s.slot i).allowance .idle rfl
    (Slot.allowanceFits_stands (by rw [hst]; decide) (by rw [hst]; decide) (by decide)) (idle_fits rfl) ?_
  rw [updSlot_id]
  refine ⟨.refl _, fun _ _ => .refl _, .of_eq ?_⟩
  rw [slot_transition_self]
  rfl

theorem micros_refuseQueued (q : List PowerEntry) : ∀ s : State, (q.map PowerEntry.slot).Nodup →
    (∀ e ∈ q, (s.slot e.slot).state = .powerWait) → Micros s (refuseQueued q s) := by
  induction q with
  | nil => exact fun _ _ _ => .refl
  | cons e q ih =>
    intro s hnodup hwait
    rw [List.map_cons, List.nodup_cons] at hnodup
    unfold refuseQueued
    split
    · refine .head (micro_refuse (hwait e (by simp))) (ih _ hnodup.2 fun f hf => ?_)
      have hne : f.slot ≠ e.slot := fun he => hnodup.1 (he ▸ List.mem_map_of_mem hf)
      rw [slot_transition_ne _ _ _ _ hne, slot_powerDown_ne _ _ hne]
      exact hwait f (List.mem_cons_of_mem _ hf)
    · exact ih s hnodup.2 fun f hf => hwait f (List.mem_cons_of_mem _ hf)

theorem Small.micros {s t : State} (h : Small s t) (hs : s.queuesSound) : Micros s t := by
  obtain ⟨hq, hr, hmem⟩ := hs
  cases h with
  | micro h => exact .single h
  | walks => exact micros_walkFrom _ s hr fun _ hi => hi
  | refuses => exact micros_refuseQueued _ s hq fun e he => (hmem e.slot).1.1 (List.mem_map_of_mem he)

/-- What every small move keeps beside the queues, runs of small moves keep. -/
theorem Smalls.keeps {P : State → Prop} (micro : ∀ s t, Micro s t → s.queuesSound → P s → P t) {s t : State}
    (h : Smalls s t) (hq : s.queuesSound) (hP : P s) : t.queuesSound ∧ P t := by
  have micros : ∀ {u v : State}, Micros u v → u.queuesSound ∧ P u → v.queuesSound ∧ P v := by
    intro u v h hu
    induction h with
    | refl => exact hu
    | tail _ h ih => exact ⟨h.queuesSound ih.1, micro _ _ h ih.1 ih.2⟩
  induction h with
  | refl => exact ⟨hq, hP⟩
  | tail _ h ih => exact micros (h.micros ih.1) ih

/-- What every small move keeps beside the queues, and what does not depend on more than the cores of the slots, every turn
keeps. -/
theorem Turn.keeps {P : State → Prop} (congr : ∀ s t, CoreEq s t → P s → P t)
    (micro : ∀ s t, Micro s t → s.queuesSound → P s → P t) {s t : State} (h : Turn s t) (hq : s.queuesSound) (hP : P s) :
    t.queuesSound ∧ P t := by
  cases h with
  | move h => exact h.smalls.keeps micro hq hP
  | contacts i _ h =>
    have hcore : CoreEq s t := h.coreEq_beside ⟨rfl, rfl, rfl, rfl, rfl, rfl⟩
    exact ⟨queuesSound_congr hcore hq, congr s t hcore hP⟩

/-! ### The resets -/

theorem queuesSound_endReset (rateHigh : Bool) (s : State) : (endReset rateHigh s).queuesSound := by
  refine ⟨List.nodup_nil, List.nodup_nil, fun i => ?_⟩
  rw [slot_endReset]
  exact ⟨iff_of_false List.not_mem_nil SlotState.noConfusion, iff_of_false List.not_mem_nil SlotState.noConfusion⟩

theorem queuesSound_assertReset {s : State} (hs : s.queuesSound) : (assertReset s).queuesSound := by
  obtain ⟨hq, hr, hmem⟩ := hs
  refine ⟨hq, hr, fun i => ?_⟩
  rw [slot_assertReset]
  exact hmem i

theorem coreEq_setRaw (i : SlotId) (contact : Contact) (made : Bool) (s : State) :
    CoreEq s (s.updSlot i fun c => c.setRaw contact made) := by
  refine ⟨⟨rfl, rfl, rfl, rfl, rfl, rfl⟩, fun j => ?_⟩
  obtain ⟨early, late, hj⟩ := slot_setRaw i contact made s j
  rw [hj]
  exact ⟨rfl, rfl, rfl, rfl, rfl, rfl⟩

/-- A property that small moves and the resets keep beside the queues, and that does not depend on more than the blocks
and the cores of the slots, is kept by every step. -/
theorem micros_keep {P : State → Prop} (congr : ∀ s t, CoreEq s t → P s → P t) (queue : ∀ s q, P s → P (s.withPending q))
    (micro : ∀ s t, Micro s t → s.queuesSound → P s → P t) (cold : ∀ rateHigh s, P (endReset rateHigh s))
    (reset : ∀ s, P s → P (assertReset s)) :
    ∀ s t, s.queuesSound ∧ P s → step s = .next t → t.queuesSound ∧ P t :=
  turns_keep (P := fun s => s.queuesSound ∧ P s) (fun s q h => ⟨h.1, queue s q h.2⟩)
    (fun _ _ _ h hs => h.keeps congr micro hs.1 hs.2) (fun rateHigh s _ => ⟨queuesSound_endReset rateHigh s, cold rateHigh s⟩)
    (fun s h => ⟨queuesSound_assertReset h.1, reset s h.2⟩)
    fun i contact made s _ h => ⟨queuesSound_congr (coreEq_setRaw i contact made s) h.1,
      congr _ _ (coreEq_setRaw i contact made s) h.2⟩

/-- Settles O8. -/
theorem stepKeepsQueuesByState : Obligations.StepKeepsQueuesByState := fun s t hs h =>
  (micros_keep (P := fun _ => True) (fun _ _ _ _ => trivial) (fun _ _ _ => trivial) (fun _ _ _ _ _ => trivial)
    (fun _ _ => trivial) (fun _ _ => trivial) s t ⟨hs, trivial⟩ h).1

end Sys2Proof.Machine
end

section
/-!
PROOF. The unlock allowance and the pins of the parameter sets (04 R80, 06 R107, R108).
-/
namespace Sys2Proof.Machine

/-! ### The allowance -/

/-- A slot's allowance agrees with its state (04 R80). -/
def Slot.AllowanceSound (c : Slot) : Prop :=
  c.allowance ≤ 3 ∧ (c.state = .barred → c.allowance = 0) ∧ (c.allowance = 0 → c.state = .barred ∨ c.state = .disabled)

theorem allowanceSound_iff (s : State) : s.allowanceSound ↔ ∀ i, (s.slot i).AllowanceSound := .rfl

theorem Slot.SameCore.allowanceSound {c d : Slot} (h : c.SameCore d) (hc : c.AllowanceSound) : d.AllowanceSound := by
  unfold Slot.AllowanceSound at *
  rw [h.allowance, h.state]
  exact hc

/-- A slot goes, with its allowance, from a state in which it is not 0 to another. -/
theorem Slot.AllowanceSound.moved {c d : Slot} (hc : c.AllowanceSound) (ha : d.allowance = c.allowance)
    (hold : c.state ≠ .barred ∧ c.state ≠ .disabled) (hnew : d.state ≠ .barred) : d.AllowanceSound := by
  obtain ⟨hle, _, hzero⟩ := hc
  refine ⟨ha ▸ hle, fun h => absurd h hnew, fun h => ?_⟩
  rcases hzero (ha ▸ h) with h | h
  · exact absurd h hold.1
  · exact absurd h hold.2

theorem Slot.AllowanceSound.fitted {c d : Slot} (hc : c.AllowanceSound) (h : c.AllowanceFits d.allowance d.state) :
    d.AllowanceSound := by
  obtain ⟨hle, _, hzero⟩ := hc
  obtain ⟨hbound, hfits⟩ := h
  refine ⟨by omega, fun hbar => ?_, fun h0 => ?_⟩
  · rcases hfits with h | ⟨_, h, _⟩
    · exact h.2 hbar
    · exact absurd hbar h
  · rcases hfits with h | ⟨ha, _, h | h⟩
    · exact .inl (h.1 h0)
    · exact .inr h
    · rcases hzero (ha ▸ h0) with h' | h'
      · exact absurd h' h.1
      · exact absurd h' h.2

theorem Micro.allowanceSound {s t : State} (h : Micro s t) (hq : s.queuesSound) (hs : s.allowanceSound) (j : SlotId) :
    (t.slot j).AllowanceSound := by
  have halike : ∀ c d : Slot, c.Alike d → c.AllowanceSound → d.AllowanceSound := fun _ _ h => h.sameCore.allowanceSound
  have hmoved : ∀ {i : SlotId} {c d : Slot}, c.Alike d → c.allowance = (s.slot i).allowance → c.state ≠ .barred →
      (s.slot i).state ≠ .barred ∧ (s.slot i).state ≠ .disabled → (s.slot i).AllowanceSound → d.AllowanceSound :=
    fun h ha hnew hold hi => halike _ _ h (hi.moved ha hold hnew)
  cases h with
  | soft h => exact halike _ _ (h.slots j) (hs j)
  | enters i st r a results T _ _ hfits _ h =>
    refine h.forEach halike (fun d hd hi => halike _ _ hd (hi.fitted hfits)) j (hs j)
  | amends i a results _ ha h =>
    refine h.forEach halike (fun d hd hi => halike _ _ hd ?_) j (hs j)
    rcases ha with ha | ⟨hne, hle, hbar⟩
    · exact Slot.SameCore.allowanceSound (c := { s.slot i with screening := results })
        ⟨rfl, ha, rfl, rfl, rfl, rfl⟩ hi
    · exact ⟨Nat.le_trans hle hi.1, fun hb => absurd hb hbar, fun h0 => absurd h0 hne⟩
  | drops i st r a T _ hfits _ h =>
    exact (changes_drop h).forEach halike (fun d hd hi => halike _ _ hd (Slot.AllowanceSound.fitted hi hfits)) j (hs j)
  | grants e rest hqueue _ _ =>
    have hwait : (s.slot e.slot).state = .powerWait := (hq.2.2 e.slot).1.1 (by rw [hqueue]; simp)
    exact (changes_grant e rest s).forEach halike
      (fun d hd => hmoved hd rfl SlotState.noConfusion (by rw [hwait]; decide)) j (hs j)
  | places i plan hroom _ =>
    have hwait : (s.slot i).state = .roomWait := (hq.2.2 i).2.1 hroom
    exact (changes_place i plan s).forEach halike
      (fun d hd => hmoved hd rfl SlotState.noConfusion (by rw [hwait]; decide)) j (hs j)
  | waits i hold _ =>
    exact (changes_wait i s).forEach halike (fun d hd => hmoved hd rfl SlotState.noConfusion hold.2) j (hs j)
  | ramps i T hold _ h =>
    exact h.forEach halike (fun d hd => hmoved hd rfl SlotState.noConfusion (by rw [hold]; decide)) j (hs j)
  | advances i st r T hst _ h =>
    have hold : (s.slot i).state ≠ .barred ∧ (s.slot i).state ≠ .disabled := by
      rcases hst with ⟨h, _⟩ | ⟨h, _⟩ <;> rw [h] <;> decide
    have hnew : st ≠ .barred := by
      rcases hst with ⟨_, h⟩ | ⟨_, h⟩ <;> rw [h] <;> decide
    exact h.forEach halike (fun d hd => hmoved hd rfl hnew hold) j (hs j)
  | times i T _ h =>
    exact h.forEach halike (fun d hd hi => halike _ _ hd hi) j (hs j)
  | pins i n _ _ _ h => exact h.forEach halike (fun d hd hi => halike _ _ hd hi) j (hs j)
  | configures i n r hold _ h =>
    exact h.forEach halike (fun d hd => hmoved hd rfl SlotState.noConfusion (by rw [hold]; decide)) j (hs j)
  | unpins i n _ h => exact h.forEach halike (fun d hd hi => halike _ _ hd hi) j (hs j)
  | joins i plan hold _ =>
    have hne : (s.slot i).state ≠ .barred ∧ (s.slot i).state ≠ .disabled := by
      rcases hold with h | ⟨h, _⟩ <;> rw [h] <;> decide
    exact (changes_join i plan s).forEach halike (fun d hd => hmoved hd rfl SlotState.noConfusion hne) j (hs j)
  | rooms i hold =>
    have hne : (s.slot i).state ≠ .barred ∧ (s.slot i).state ≠ .disabled := by
      rcases hold with h | ⟨h, _⟩ <;> rw [h] <;> decide
    exact (changes_room i s).forEach halike (fun d hd => hmoved hd rfl SlotState.noConfusion hne) j (hs j)
  | runs i hold h =>
    exact h.forEach halike (fun d hd => hmoved hd rfl SlotState.noConfusion (by rw [hold]; decide)) j (hs j)
  | power v _ _ =>
    unfold recomputeThresholds
    rw [slot_mapSlots]
    exact hs j
  | cycle v _ _ _ _ _ _ _ _ _ _ h => exact halike _ _ (h.slots j) (hs j)
  | sets h _ => exact halike _ _ (h.slots j) (hs j)
  | sequencer h _ _ => exact halike _ _ (h.slots j) (hs j)

/-- Settles O12: only a bar takes the allowance to 0, and only its clearing from there. -/
theorem stepKeepsAllowance : Obligations.StepKeepsAllowance := fun s t hs h =>
  (micros_keep (P := State.allowanceSound) (fun _ _ h hs i => (h.slots i).allowanceSound (hs i)) (fun _ _ h => h)
    (fun _ _ h hq hs => h.allowanceSound hq hs)
    (fun rateHigh s i => by
      rw [slot_endReset]
      exact ⟨Nat.le_refl 3, SlotState.noConfusion, fun h => absurd h (Nat.succ_ne_zero 2)⟩)
    (fun s hs i => by
      rw [slot_assertReset]
      exact hs i) s t hs h).2

/-! ### Sums over the slots -/

/-- A sum over distinct slots, of which one term changes. -/
theorem sum_changed_of_nodup {f g : SlotId → Nat} {i : SlotId} (h : ∀ j, j ≠ i → g j = f j) {l : List SlotId} :
    l.Nodup → i ∈ l → (l.map g).sum + f i = (l.map f).sum + g i := by
  induction l with
  | nil => exact fun _ hi => absurd hi List.not_mem_nil
  | cons j l ih =>
    intro hnodup hi
    obtain ⟨hj, hl⟩ := List.nodup_cons.1 hnodup
    simp only [List.map_cons, List.sum_cons]
    by_cases hji : j = i
    · subst hji
      have hrest : l.map g = l.map f := List.map_congr_left fun k hk => h k fun e => hj (e ▸ hk)
      rw [hrest]
      omega
    · have hrest := ih hl ((List.mem_cons.1 hi).resolve_left fun e => hji e.symm)
      rw [h j hji]
      omega

/-- A sum over the slots, of which one term changes. -/
theorem sum_changed {f g : SlotId → Nat} (i : SlotId) (h : ∀ j, j ≠ i → g j = f j) :
    ((List.finRange 12).map g).sum + f i = ((List.finRange 12).map f).sum + g i :=
  sum_changed_of_nodup h (by decide) (List.mem_finRange i)

theorem countP_eq_sum {α : Type} (p : α → Bool) (l : List α) : l.countP p = (l.map fun a => if p a then 1 else 0).sum := by
  induction l with
  | nil => rfl
  | cons a l ih =>
    rw [List.countP_cons, ih, List.map_cons, List.sum_cons, Nat.add_comm]

/-- A count over the slots, where one slot changes. -/
theorem countP_changed {p q : SlotId → Bool} (i : SlotId) (h : ∀ j, j ≠ i → q j = p j) :
    (List.finRange 12).countP q + (if p i then 1 else 0) = (List.finRange 12).countP p + if q i then 1 else 0 := by
  rw [countP_eq_sum, countP_eq_sum]
  exact sum_changed (f := fun j => if p j then 1 else 0) (g := fun j => if q j then 1 else 0) i
    fun j hj => by rw [h j hj]

/-! ### The pins -/

theorem setsSound_congr {s t : State} (h : CoreEq s t) (hs : s.setsSound) : t.setsSound := by
  have hpinners : ∀ n, t.pinners n = s.pinners n := fun n => by
    unfold State.pinners
    simp only [(h.slots _).pin]
  obtain ⟨hsets, hslots⟩ := hs
  refine ⟨fun n => ?_, fun i => ?_⟩
  · rw [hpinners, h.blocks.sets]; exact hsets n
  · rw [(h.slots i).pin, (h.slots i).state]; exact hslots i

theorem pinners_changed {i : SlotId} {g : Slot → Slot} (u : State) (n : Fin 8) :
    (u.updSlot i g).pinners n + (if (u.slot i).pin = some n then 1 else 0) =
      u.pinners n + if (g (u.slot i)).pin = some n then 1 else 0 := by
  have h := countP_changed (p := fun j => decide ((u.slot j).pin = some n))
    (q := fun j => decide (((u.updSlot i g).slot j).pin = some n)) i fun j hj => by rw [slot_updSlot_ne _ _ hj]
  simp only [slot_updSlot_self, decide_eq_true_eq] at h
  exact h

/-- A slot changes, its pin and its part in the sets with it. -/
theorem setsSound_changed {i : SlotId} {g : Slot → Slot} {s u t : State} (hs : s.setsSound) (h : Changes i g u t)
    (hslots : ∀ j, u.slot j = s.slot j)
    (hsets : ∀ n : Fin 8, u.sets[n].sound ∧ (0 < u.sets[n].pins → u.sets[n].state = .ready) ∧
      u.sets[n].pins + (if (s.slot i).pin = some n then 1 else 0) =
        s.sets[n].pins + if (g (s.slot i)).pin = some n then 1 else 0)
    (hstate : (g (s.slot i)).pin.isSome → (g (s.slot i)).state = .configuring) : t.setsSound := by
  refine setsSound_congr h.coreEq ⟨fun n => ?_, fun j => ?_⟩
  · obtain ⟨hsound, hready, hpins⟩ := hsets n
    refine ⟨hsound, ?_, hready⟩
    have hcount := pinners_changed (i := i) (g := g) u n
    have hbefore : u.pinners n = s.pinners n := by unfold State.pinners; simp only [hslots]
    rw [hslots, hbefore, ← (hs.1 n).2.1] at hcount
    change u.sets[n].pins = _
    omega
  · by_cases hj : j = i
    · subst hj; rw [slot_updSlot_self, hslots]; exact hstate
    · rw [slot_updSlot_ne _ _ hj, hslots]; exact hs.2 j

/-- A slot changes beside its pin. -/
theorem setsSound_beside {i : SlotId} {g : Slot → Slot} {s u t : State} (hs : s.setsSound) (h : Changes i g u t)
    (hslots : ∀ j, u.slot j = s.slot j) (hsets : u.sets = s.sets) (hpin : (g (s.slot i)).pin = (s.slot i).pin)
    (hstate : (s.slot i).state = .configuring → (s.slot i).pin.isSome → (g (s.slot i)).state = .configuring) :
    t.setsSound := by
  refine setsSound_changed hs h hslots (fun n => ?_) fun hsome => ?_
  · rw [hsets, hpin]
    exact ⟨(hs.1 n).1, (hs.1 n).2.2, rfl⟩
  · rw [hpin] at hsome
    exact hstate (hs.2 i hsome) hsome

/-- The sets after a slot pins one or lets go of one. -/
theorem getElem_set_pins (sets : Vector ParamSet 8) (n m : Fin 8) (k : Nat) :
    (sets.set n { sets[n] with pins := k })[m] = if n = m then { sets[n] with pins := k } else sets[m] := by
  by_cases h : n = m
  · subst h; simp
  · simp [h, Fin.val_ne_of_ne h]

theorem sound_pins (p : ParamSet) (k : Nat) : ({ p with pins := k } : ParamSet).sound ↔ p.sound := .rfl

/-- A slot in CONFIGURING without a pin pins a READY set. -/
theorem setsSound_pinned {i : SlotId} {n : Fin 8} {g : Slot → Slot} {s t : State} (hs : s.setsSound)
    (h : Changes i g { s with sets := s.sets.set n { s.sets[n] with pins := s.sets[n].pins + 1 } } t)
    (hnone : (s.slot i).pin = none) (hready : s.sets[n].state = .ready) (hpin : (g (s.slot i)).pin = some n)
    (hstate : (g (s.slot i)).state = .configuring) : t.setsSound := by
  refine setsSound_changed hs h (fun _ => rfl) (fun m => ?_) fun _ => hstate
  dsimp only
  rw [getElem_set_pins, hnone, hpin]
  split
  · rename_i hnm
    subst hnm
    exact ⟨(sound_pins _ _).2 (hs.1 n).1, fun _ => hready, by simp⟩
  · rename_i hnm
    exact ⟨(hs.1 m).1, (hs.1 m).2.2, by simp [hnm]⟩

/-- A slot that holds a pin is counted in its set. -/
theorem pins_pos {i : SlotId} {n : Fin 8} {s : State} (hs : s.setsSound) (hpin : (s.slot i).pin = some n) :
    0 < s.sets[n].pins := by
  rw [(hs.1 n).2.1]
  exact List.countP_pos_iff.2 ⟨i, List.mem_finRange i, by simp [hpin]⟩

/-- A slot lets go of its pin. -/
theorem setsSound_unpinned {i : SlotId} {g : Slot → Slot} {s u t : State} (hs : s.setsSound) (h : Changes i g u t)
    (hslots : ∀ j, u.slot j = s.slot j) (hsets : u.sets = unpinSets (s.slot i).pin s.sets)
    (hpin : (g (s.slot i)).pin = none) : t.setsSound := by
  refine setsSound_changed hs h hslots (fun m => ?_) fun hsome => by rw [hpin] at hsome; cases hsome
  rw [hsets, hpin]
  cases hp : (s.slot i).pin with
  | none => exact ⟨(hs.1 m).1, (hs.1 m).2.2, rfl⟩
  | some n =>
    unfold unpinSets
    dsimp only
    rw [getElem_set_pins]
    have hpos := pins_pos hs hp
    split
    · rename_i hnm
      subst hnm
      exact ⟨(sound_pins _ _).2 (hs.1 n).1, fun _ => (hs.1 n).2.2 hpos, by simpa using Nat.sub_add_cancel hpos⟩
    · rename_i hnm
      exact ⟨(hs.1 m).1, (hs.1 m).2.2, by simp [hnm]⟩

theorem Micro.setsSound {s t : State} (h : Micro s t) (hq : s.queuesSound) (hs : s.setsSound) : t.setsSound := by
  have hslots : ∀ j, s.slot j = s.slot j := fun _ => rfl
  have hfree : ∀ {i : SlotId}, (s.slot i).state ≠ .configuring → (s.slot i).pin = none := fun {i} hne => by
    cases hp : (s.slot i).pin with
    | none => rfl
    | some n => exact absurd (hs.2 i (by rw [hp]; rfl)) hne
  have hquiet : ∀ {i : SlotId}, (s.slot i).state.parkable = false → (s.slot i).state ≠ .configuring := fun h he => by
    rw [he] at h; cases h
  cases h with
  | soft h => exact setsSound_congr h.coreEq hs
  | enters i st r a results T hold _ _ _ h =>
    exact setsSound_beside hs h hslots rfl rfl fun he => absurd he (hquiet hold)
  | amends i a results _ _ h => exact setsSound_beside hs h hslots rfl rfl fun he _ => he
  | drops i st r a T _ _ _ h => exact setsSound_unpinned hs (changes_drop h) (fun _ => rfl) rfl rfl
  | grants e rest hqueue _ _ =>
    have hwait : (s.slot e.slot).state = .powerWait := (hq.2.2 e.slot).1.1 (by rw [hqueue]; simp)
    exact setsSound_beside hs (changes_grant e rest s) (fun _ => rfl) rfl rfl fun he => by rw [hwait] at he; cases he
  | places i plan hroom _ =>
    have hwait : (s.slot i).state = .roomWait := (hq.2.2 i).2.1 hroom
    exact setsSound_beside hs (changes_place i plan s) (fun _ => rfl) rfl rfl fun he => by rw [hwait] at he; cases he
  | waits i hold _ =>
    exact setsSound_beside hs (changes_wait i s) (fun _ => rfl) rfl rfl fun he => absurd he (hquiet hold.1)
  | ramps i T hold _ h =>
    exact setsSound_beside hs h (fun _ => rfl) rfl rfl fun he => by rw [hold] at he; cases he
  | advances i st r T hst _ h =>
    refine setsSound_beside hs h hslots rfl rfl fun he => ?_
    rcases hst with ⟨hold, _⟩ | ⟨hold, _⟩ <;> rw [hold] at he <;> cases he
  | times i T _ h => exact setsSound_beside hs h hslots rfl rfl fun he _ => he
  | pins i n hst hpin hready h => exact setsSound_pinned hs h hpin hready rfl hst
  | configures i n r hst hready h =>
    exact setsSound_pinned hs h (hfree (by rw [hst]; decide)) hready rfl rfl
  | unpins i n hpin h => exact setsSound_unpinned hs h (fun _ => rfl) (by rw [hpin]; rfl) rfl
  | joins i plan hold _ =>
    refine setsSound_beside hs (changes_join i plan s) (fun _ => rfl) rfl rfl fun he hsome => ?_
    rcases hold with h | ⟨_, h⟩
    · rw [h] at he; cases he
    · rw [h] at hsome; cases hsome
  | rooms i hold =>
    refine setsSound_beside hs (changes_room i s) (fun _ => rfl) rfl rfl fun he hsome => ?_
    rcases hold with h | ⟨_, h⟩
    · rw [h] at he; cases he
    · rw [h] at hsome; cases hsome
  | runs i hold h => exact setsSound_beside hs h hslots rfl rfl fun he => by rw [hold] at he; cases he
  | power v _ _ =>
    refine ⟨fun n => ?_, fun i => ?_⟩
    · have hcount : (recomputeThresholds (storePower v s)).pinners n = s.pinners n := by
        unfold State.pinners recomputeThresholds
        simp only [slot_mapSlots]
        rfl
      rw [hcount]; exact hs.1 n
    · unfold recomputeThresholds
      rw [slot_mapSlots]
      exact hs.2 i
  | cycle v _ _ _ _ _ _ _ _ _ _ h =>
    have hcore := setsSound_congr h.coreEq hs
    exact hcore
  | sets h hsets =>
    have hpin : ∀ i, (t.slot i).pin = (s.slot i).pin := fun i => (h.slots i).pin
    have hstate : ∀ i, (t.slot i).state = (s.slot i).state := fun i => (h.slots i).state
    refine ⟨fun n => ?_, fun i => by rw [hpin, hstate]; exact hs.2 i⟩
    have hcount : t.pinners n = s.pinners n := by unfold State.pinners; simp only [hpin]
    obtain ⟨hsound, hpins, hready⟩ := hs.1 n
    rcases hsets n with h | ⟨h0, h0', h⟩
    · rw [h, hcount]; exact ⟨hsound, hpins, hready⟩
    · exact ⟨h hsound, by rw [hcount, ← hpins, h0, h0'], fun hp => absurd h0' (Nat.ne_of_gt hp)⟩
  | sequencer h _ _ =>
    have hcore := setsSound_congr h.coreEq hs
    exact hcore

theorem setsSound_endReset (rateHigh : Bool) (s : State) : (endReset rateHigh s).setsSound := by
  refine ⟨fun n => ?_, fun i => ?_⟩
  · have hset : (endReset rateHigh s).sets[n] = ParamSet.empty := by
      unfold endReset State.reset
      simp
    rw [hset]
    refine ⟨⟨rfl, rfl⟩, ?_, fun h => absurd h (Nat.lt_irrefl 0)⟩
    unfold State.pinners
    simp only [slot_endReset]
    exact (List.countP_eq_zero.2 fun i _ => by simp [Slot.wake, Slot.reset]).symm
  · rw [slot_endReset]
    intro h
    cases h

theorem setsSound_assertReset {s : State} (hs : s.setsSound) : (assertReset s).setsSound := by
  refine ⟨fun n => ?_, fun i => ?_⟩
  · have hcount : (assertReset s).pinners n = s.pinners n := by
      unfold State.pinners
      simp only [slot_assertReset]
      rfl
    rw [hcount]
    exact hs.1 n
  · rw [slot_assertReset]
    exact hs.2 i

/-- Settles O11: a pin is taken with a count of its set and released with it. -/
theorem stepKeepsSetsPinned : Obligations.StepKeepsSetsPinned := fun s t hs h =>
  (micros_keep (P := State.setsSound) (fun _ _ => setsSound_congr) (fun _ _ h => h) (fun _ _ h hq hs => h.setsSound hq hs)
    setsSound_endReset (fun _ => setsSound_assertReset) s t hs h).2

end Sys2Proof.Machine
end

section
/-!
PROOF. The power allowance but for its last clause: grants, committed power, ramping count and thresholds (05 R87 to R89).
-/
namespace Sys2Proof.Machine

/-- The overload threshold of a slot's power under a margin, by the formula of 05 R88. -/
def Slot.formula (c : Slot) (margin : Nat) : Nat := min 4095 ((((((c.power * 25 + 5) / 6) * margin + 99) / 100 + 4) / 5))

theorem overloadThreshold_eq (c : Slot) (margin : Nat) : overloadThreshold c.power margin = c.formula margin := by
  unfold overloadThreshold Slot.formula ceilDiv
  simp

/-- A slot from RESET_HOLD to RUNNING holds the overload threshold of its power (05 R88). -/
def Slot.ThresholdSound (margin : Nat) (c : Slot) : Prop :=
  c.state ∈ [SlotState.resetHold, .readyWait, .configuring, .roomWait, .joining, .running] →
    c.threshold = some (c.formula margin)

/-- The power allowance is accounted for; whether the head of the queue could be granted is left open. -/
structure PowerAccounted (s : State) : Prop where
  grants : ∀ i, (s.slot i).grant = (s.slot i).state.mainOn
  committed : s.arbiter.committed = s.grantedPower
  ramping : s.arbiter.ramping = s.countState .powering
  budget : s.arbiter.committed ≤ s.arbiter.budget
  rampLimit : s.arbiter.ramping ≤ s.arbiter.rampLimit
  queue : ∀ e ∈ s.arbiter.queue, e.power = (s.slot e.slot).power
  thresholds : ∀ i, (s.slot i).ThresholdSound s.monitor.margin

theorem powerSound_iff (s : State) : s.powerSound ↔ PowerAccounted s ∧ s.arbiter.blocked :=
  ⟨fun ⟨h1, h2, h3, h4, h5, h6, h7, h8⟩ => ⟨⟨h1, h2, h3, h4, h5, h6, h7⟩, h8⟩,
    fun ⟨⟨h1, h2, h3, h4, h5, h6, h7⟩, h8⟩ => ⟨h1, h2, h3, h4, h5, h6, h7, h8⟩⟩

theorem Slot.SameCore.thresholdSound {c d : Slot} (h : c.SameCore d) {margin : Nat} (hc : c.ThresholdSound margin) :
    d.ThresholdSound margin := by
  unfold Slot.ThresholdSound Slot.formula at *
  rw [h.state, h.threshold, h.power]
  exact hc

theorem powerAccounted_congr {s t : State} (h : CoreEq s t) (hs : PowerAccounted s) : PowerAccounted t where
  grants i := by rw [(h.slots i).grant, (h.slots i).state]; exact hs.grants i
  committed := by
    have hp : t.grantedPower = s.grantedPower := by
      unfold State.grantedPower
      simp only [(h.slots _).grant, (h.slots _).power]
    rw [h.blocks.arbiter, hp]; exact hs.committed
  ramping := by
    have hc : t.countState .powering = s.countState .powering := by
      unfold State.countState
      simp only [(h.slots _).state]
    rw [h.blocks.arbiter, hc]; exact hs.ramping
  budget := by rw [h.blocks.arbiter]; exact hs.budget
  rampLimit := by rw [h.blocks.arbiter]; exact hs.rampLimit
  queue e he := by
    rw [h.blocks.arbiter] at he
    rw [(h.slots _).power]
    exact hs.queue e he
  thresholds i := by
    rw [h.blocks.margin]
    exact (h.slots i).thresholdSound (hs.thresholds i)

/-- One slot changes, and its share of the account with it. -/
theorem powerAccounted_changed {i : SlotId} {g : Slot → Slot} {s u t : State} (hs : PowerAccounted s) (h : Changes i g u t)
    (hslots : ∀ j, u.slot j = s.slot j) (hmargin : u.monitor.margin = s.monitor.margin)
    (hgrant : (g (s.slot i)).grant = (g (s.slot i)).state.mainOn)
    (hcommitted : u.arbiter.committed + (if (s.slot i).grant then (s.slot i).power else 0) =
      s.arbiter.committed + if (g (s.slot i)).grant then (g (s.slot i)).power else 0)
    (hramping : u.arbiter.ramping + (if (s.slot i).state = .powering then 1 else 0) =
      s.arbiter.ramping + if (g (s.slot i)).state = .powering then 1 else 0)
    (hlimits : u.arbiter.committed ≤ u.arbiter.budget ∧ u.arbiter.ramping ≤ u.arbiter.rampLimit)
    (hqueue : ∀ e ∈ u.arbiter.queue, e.power = if e.slot = i then (g (s.slot i)).power else (s.slot e.slot).power)
    (hthreshold : (g (s.slot i)).ThresholdSound s.monitor.margin) : PowerAccounted t := by
  have hself : (u.updSlot i g).slot i = g (s.slot i) := by rw [slot_updSlot_self, hslots]
  have hother : ∀ j, j ≠ i → (u.updSlot i g).slot j = s.slot j := fun j hj => by rw [slot_updSlot_ne _ _ hj, hslots]
  refine powerAccounted_congr h.coreEq ⟨fun j => ?_, ?_, ?_, hlimits.1, hlimits.2, fun e he => ?_, fun j => ?_⟩
  · by_cases hj : j = i
    · subst hj; rw [hself]; exact hgrant
    · rw [hother j hj]; exact hs.grants j
  · have hsum := sum_changed (f := fun j => if (s.slot j).grant then (s.slot j).power else 0)
      (g := fun j => if ((u.updSlot i g).slot j).grant then ((u.updSlot i g).slot j).power else 0) i
      fun j hj => by rw [hother j hj]
    rw [hself] at hsum
    have hbefore : s.arbiter.committed = ((List.finRange 12).map fun j =>
      if (s.slot j).grant then (s.slot j).power else 0).sum := hs.committed
    change u.arbiter.committed = ((List.finRange 12).map fun j =>
      if ((u.updSlot i g).slot j).grant then ((u.updSlot i g).slot j).power else 0).sum
    omega
  · have hcount := countP_changed (p := fun j => decide ((s.slot j).state = .powering))
      (q := fun j => decide (((u.updSlot i g).slot j).state = .powering)) i fun j hj => by rw [hother j hj]
    rw [hself] at hcount
    simp only [decide_eq_true_eq] at hcount
    have hbefore : s.arbiter.ramping = (List.finRange 12).countP fun j => decide ((s.slot j).state = .powering) := hs.ramping
    change u.arbiter.ramping = (List.finRange 12).countP fun j => decide (((u.updSlot i g).slot j).state = .powering)
    omega
  · rw [hqueue e he]
    by_cases hj : e.slot = i
    · rw [if_pos hj, hj, hself]
    · rw [if_neg hj, hother _ hj]
  · change ((u.updSlot i g).slot j).ThresholdSound u.monitor.margin
    rw [hmargin]
    by_cases hj : j = i
    · subst hj; rw [hself]; exact hthreshold
    · rw [hother j hj]; exact hs.thresholds j

theorem queue_standing {i : SlotId} {d : Slot} {s : State} (hs : PowerAccounted s)
    (h : i ∈ s.arbiter.queue.map PowerEntry.slot → d.power = (s.slot i).power) :
    ∀ e ∈ s.arbiter.queue, e.power = if e.slot = i then d.power else (s.slot e.slot).power := by
  intro e he
  rw [hs.queue e he]
  split
  · rename_i hi
    rw [hi, h (hi ▸ List.mem_map_of_mem he)]
  · rfl

/-- One slot changes beside its power, its grant and the ramp. -/
theorem powerAccounted_beside {i : SlotId} {g : Slot → Slot} {s u t : State} (hs : PowerAccounted s) (h : Changes i g u t)
    (hslots : ∀ j, u.slot j = s.slot j) (harbiter : u.arbiter = s.arbiter) (hmargin : u.monitor.margin = s.monitor.margin)
    (hgrant : (g (s.slot i)).grant = (s.slot i).grant) (hmain : (g (s.slot i)).state.mainOn = (s.slot i).state.mainOn)
    (hpower : (s.slot i).grant = true ∨ i ∈ s.arbiter.queue.map PowerEntry.slot →
      (g (s.slot i)).power = (s.slot i).power)
    (hramp : (g (s.slot i)).state = .powering ↔ (s.slot i).state = .powering)
    (hthreshold : (g (s.slot i)).ThresholdSound s.monitor.margin) : PowerAccounted t := by
  refine powerAccounted_changed hs h hslots hmargin (by rw [hgrant, hmain]; exact hs.grants i) ?_ ?_ ?_ ?_ hthreshold
  · rw [harbiter, hgrant]
    split
    · rename_i hg; rw [hpower (.inl hg)]
    · rfl
  · rw [harbiter]; simp only [hramp]
  · rw [harbiter]; exact ⟨hs.budget, hs.rampLimit⟩
  · rw [harbiter]; exact queue_standing hs fun hm => hpower (.inr hm)

theorem quiet_facts {st : SlotState} (h : st.parkable = false) : st.mainOn = false ∧ st ≠ .powering ∧
    st ∉ [SlotState.resetHold, .readyWait, .configuring, .roomWait, .joining, .running] := by
  cases st <;> first | exact ⟨rfl, by decide, by decide⟩ | cases h

/-- A slot goes on in service, from one powered state past the ramp to the next. -/
theorem powerAccounted_serves {i : SlotId} {g : Slot → Slot} {s u t : State} (hs : PowerAccounted s) (h : Changes i g u t)
    (hslots : ∀ j, u.slot j = s.slot j) (harbiter : u.arbiter = s.arbiter) (hmargin : u.monitor.margin = s.monitor.margin)
    (hold : (s.slot i).state ∈ [SlotState.resetHold, .readyWait, .configuring, .roomWait, .joining, .running])
    (hnew : (g (s.slot i)).state ∈ [SlotState.resetHold, .readyWait, .configuring, .roomWait, .joining, .running])
    (hsame : (g (s.slot i)).grant = (s.slot i).grant ∧ (g (s.slot i)).screening = (s.slot i).screening ∧
      (g (s.slot i)).threshold = (s.slot i).threshold) : PowerAccounted t := by
  have hserve : ∀ st ∈ [SlotState.resetHold, .readyWait, .configuring, .roomWait, .joining, .running],
      st.mainOn = true ∧ st ≠ .powering := by decide
  obtain ⟨hgrant, hscreen, hthreshold⟩ := hsame
  have hpower : (g (s.slot i)).power = (s.slot i).power := by unfold Slot.power; rw [hscreen]
  refine powerAccounted_beside hs h hslots harbiter hmargin hgrant ?_ (fun _ => hpower) ?_ fun _ => ?_
  · rw [(hserve _ hnew).1, (hserve _ hold).1]
  · exact iff_of_false (hserve _ hnew).2 (hserve _ hold).2
  · unfold Slot.formula
    rw [hthreshold, hpower]
    exact hs.thresholds i hold

/-- A term of a sum over the slots. -/
theorem le_sum (f : SlotId → Nat) (i : SlotId) : f i ≤ ((List.finRange 12).map f).sum := by
  have h := sum_changed (f := f) (g := fun j => if j = i then 0 else f j) i fun j hj => if_neg hj
  simp only [if_true] at h
  omega

theorem PowerAccounted.power_le {s : State} (hs : PowerAccounted s) {i : SlotId} (h : (s.slot i).grant = true) :
    (s.slot i).power ≤ s.arbiter.committed := by
  have hle := le_sum (fun j => if (s.slot j).grant then (s.slot j).power else 0) i
  rw [h, if_pos rfl] at hle
  rw [hs.committed]
  exact hle

theorem PowerAccounted.ramping_pos {s : State} (hs : PowerAccounted s) {i : SlotId} (h : (s.slot i).state = .powering) :
    0 < s.arbiter.ramping := by
  rw [hs.ramping]
  exact List.countP_pos_iff.2 ⟨i, List.mem_finRange i, decide_eq_true h⟩

theorem dropBlocks_committed (i : SlotId) (s : State) : (dropBlocks i s).arbiter.committed =
    if (s.slot i).grant then s.arbiter.committed - (s.slot i).power else s.arbiter.committed := rfl

theorem dropBlocks_ramping (i : SlotId) (s : State) : (dropBlocks i s).arbiter.ramping =
    if (s.slot i).grant ∧ (s.slot i).state = .powering then s.arbiter.ramping - 1 else s.arbiter.ramping := rfl

/-- A slot is powered down: its power is released, its ramp given up, its place in the queue left (05 R93). -/
theorem powerAccounted_drop {i : SlotId} {g : Slot → Slot} {s t : State} (hs : PowerAccounted s)
    (h : Changes i g (dropBlocks i s) t) (hnew : (g (s.slot i)).state.parkable = false)
    (hgrant : (g (s.slot i)).grant = false) : PowerAccounted t := by
  obtain ⟨hmain, hramp, hserve⟩ := quiet_facts hnew
  have hg := hs.grants i
  refine powerAccounted_changed hs h (fun _ => rfl) rfl (hgrant.trans hmain.symm) ?_ ?_ ⟨?_, ?_⟩ ?_
    fun hm => absurd hm hserve
  · rw [dropBlocks_committed, hgrant]
    split
    · rename_i hgranted
      have hle := hs.power_le hgranted
      simp only [Bool.false_eq_true, if_false]
      omega
    · rfl
  · rw [dropBlocks_ramping, if_neg hramp]
    by_cases hst : (s.slot i).state = .powering
    · have hpos := hs.ramping_pos hst
      rw [hst] at hg
      rw [if_pos ⟨hg, hst⟩, if_pos hst]
      omega
    · rw [if_neg fun hc => hst hc.2, if_neg hst]
  · have hle := hs.budget
    rw [dropBlocks_committed]
    change _ ≤ s.arbiter.budget
    split <;> omega
  · have hle := hs.rampLimit
    rw [dropBlocks_ramping]
    change _ ≤ s.arbiter.rampLimit
    split <;> omega
  · intro e he
    obtain ⟨he, hne⟩ := List.mem_filter.1 he
    rw [if_neg (by simpa using hne)]
    exact hs.queue e he

/-- The head of the power queue is granted (05 R93). -/
theorem powerAccounted_grant {e : PowerEntry} {rest : List PowerEntry} {s : State} (hq : s.queuesSound)
    (hs : PowerAccounted s) (hqueue : s.arbiter.queue = e :: rest)
    (hfits : s.arbiter.committed + e.power ≤ s.arbiter.budget) (hramp : s.arbiter.ramping < s.arbiter.rampLimit) :
    PowerAccounted (grantPower e rest s) := by
  obtain ⟨hnodup, _, hmem⟩ := hq
  have hwait : (s.slot e.slot).state = .powerWait := (hmem e.slot).1.1 (by rw [hqueue]; simp)
  have hg : (s.slot e.slot).grant = false := by rw [hs.grants, hwait]; rfl
  have hp : e.power = (s.slot e.slot).power := hs.queue e (by rw [hqueue]; simp)
  rw [hqueue, List.map_cons, List.nodup_cons] at hnodup
  refine powerAccounted_changed hs (changes_grant e rest s) (fun _ => rfl) rfl rfl ?_ ?_ ⟨hfits, hramp⟩ (fun f hf => ?_)
    fun hm => by simp [Slot.enter] at hm
  · rw [hg]
    change s.arbiter.committed + e.power + 0 = s.arbiter.committed + (s.slot e.slot).power
    omega
  · rw [hwait]
    rfl
  · have hne : f.slot ≠ e.slot := fun he => hnodup.1 (he ▸ List.mem_map_of_mem hf)
    rw [if_neg hne]
    exact hs.queue f (by rw [hqueue]; exact List.mem_cons_of_mem _ hf)

/-- A slot joins the power queue with its card's power (05 R91). -/
theorem powerAccounted_wait {i : SlotId} {s : State} (hs : PowerAccounted s) (hold : (s.slot i).state.parkable = false) :
    PowerAccounted { transition i .powerWait .none s with arbiter := { s.arbiter with
      queue := s.arbiter.queue ++ [{ slot := i, power := (s.slot i).power }] } } := by
  obtain ⟨hmain, hramp, _⟩ := quiet_facts hold
  have hg : (s.slot i).grant = false := (hs.grants i).trans hmain
  refine powerAccounted_changed hs (changes_wait i s) (fun _ => rfl) rfl (hg.trans rfl) ?_ ?_ ⟨hs.budget, hs.rampLimit⟩
    (fun e he => ?_) fun hm => by simp [Slot.enter] at hm
  · rw [hg]
    change s.arbiter.committed + 0 = s.arbiter.committed + if (s.slot i).grant then _ else 0
    rw [hg]
    rfl
  · rw [if_neg hramp]
    rfl
  · have hpower : ((s.slot i).enter .powerWait .none).power = (s.slot i).power := rfl
    rw [hpower]
    rcases List.mem_append.1 he with he | he
    · rw [hs.queue e he]
      split
      · rename_i hi; rw [hi]
      · rfl
    · rw [List.mem_singleton.1 he, if_pos rfl]

/-- A ramp succeeds: the ramp is given back and the threshold formed (05 R88, R96). -/
theorem powerAccounted_ramp {i : SlotId} {T : StateTimers} {s t : State} (hs : PowerAccounted s)
    (hold : (s.slot i).state = .powering)
    (h : Changes i (fun c => { c.enter .resetHold .none with
        threshold := some (overloadThreshold c.power s.monitor.margin), timers := T })
      { s with arbiter := { s.arbiter with ramping := s.arbiter.ramping - 1 } } t) : PowerAccounted t := by
  have hg : (s.slot i).grant = true := by rw [hs.grants, hold]; rfl
  have hpos := hs.ramping_pos hold
  have hlimit := hs.rampLimit
  have hqueue := queue_standing (i := i) (d := s.slot i) hs fun _ => rfl
  refine powerAccounted_changed hs h (fun _ => rfl) rfl (hg.trans rfl) rfl ?_ ⟨hs.budget, ?_⟩ hqueue fun _ => ?_
  · rw [if_pos hold]
    change s.arbiter.ramping - 1 + 1 = s.arbiter.ramping + 0
    omega
  · change s.arbiter.ramping - 1 ≤ s.arbiter.rampLimit
    omega
  · exact congrArg some (overloadThreshold_eq (s.slot i) s.monitor.margin)

/-- SET_POWER stores limits that hold what is committed, and recomputes every threshold (05 R85, R87). -/
theorem powerAccounted_power {v : PowerFields} {s : State} (hs : PowerAccounted s)
    (hbudget : s.arbiter.committed ≤ v.budget.toNat) (hlimit : s.arbiter.ramping ≤ v.rampLimit.toNat) :
    PowerAccounted (recomputeThresholds (storePower v s)) := by
  have hslot := slot_storedPower v s
  refine ⟨fun i => ?_, ?_, ?_, hbudget, hlimit, fun e he => ?_, fun i hm => ?_⟩
  · rw [hslot]; exact hs.grants i
  · have hp : (recomputeThresholds (storePower v s)).grantedPower = s.grantedPower := by
      unfold State.grantedPower
      simp only [hslot]
      rfl
    rw [hp]; exact hs.committed
  · have hc : (recomputeThresholds (storePower v s)).countState .powering = s.countState .powering := by
      unfold State.countState
      simp only [hslot]
    rw [hc]; exact hs.ramping
  · rw [hslot]; exact hs.queue e he
  · rw [hslot] at hm ⊢
    have hold := hs.thresholds i hm
    dsimp only
    rw [hold]
    exact congrArg some (overloadThreshold_eq (s.slot i) _)

theorem Micro.powerAccounted {s t : State} (h : Micro s t) (hq : s.queuesSound) (hs : PowerAccounted s) :
    PowerAccounted t := by
  have hslots : ∀ j, s.slot j = s.slot j := fun _ => rfl
  obtain ⟨hnodup, _, hmem⟩ := id hq
  have hquiet : ∀ {i : SlotId} {x : Slot}, (s.slot i).state.parkable = false →
      ((s.slot i).grant = true ∨ i ∈ s.arbiter.queue.map PowerEntry.slot → x.power = (s.slot i).power) := by
    intro i x hold hor
    rcases hor with hg | hm
    · rw [hs.grants, (quiet_facts hold).1] at hg; cases hg
    · exact absurd ((hmem i).1.1 hm) (ne_waits hold).1
  cases h with
  | soft h => exact powerAccounted_congr h.coreEq hs
  | enters i st r a results T hold hnew _ _ h =>
    refine powerAccounted_beside hs h hslots rfl rfl rfl ?_ (hquiet hold) ?_ fun hm => absurd hm (quiet_facts hnew).2.2
    · exact (quiet_facts hnew).1.trans (quiet_facts hold).1.symm
    · exact iff_of_false (quiet_facts hnew).2.1 (quiet_facts hold).2.1
  | amends i a results hold _ h =>
    exact powerAccounted_beside hs h hslots rfl rfl rfl rfl (hquiet hold) .rfl fun hm => absurd hm (quiet_facts hold).2.2
  | drops i st r a T hnew _ _ h => exact powerAccounted_drop hs (changes_drop h) hnew rfl
  | grants e rest hqueue hfits hramp => exact powerAccounted_grant hq hs hqueue hfits hramp
  | places i plan hroom _ =>
    have hwait : (s.slot i).state = .roomWait := (hmem i).2.1 hroom
    exact powerAccounted_serves hs (changes_place i plan s) (fun _ => rfl) rfl rfl (by rw [hwait]; decide) (by simp [Slot.enter])
      ⟨rfl, rfl, rfl⟩
  | waits i hold _ => exact powerAccounted_wait hs hold.1
  | ramps i T hold _ h => exact powerAccounted_ramp hs hold h
  | advances i st r T hst _ h =>
    rcases hst with ⟨hold, rfl⟩ | ⟨hold, rfl⟩
    · exact powerAccounted_serves hs h hslots rfl rfl (by rw [hold]; decide) (by simp [Slot.enter]) ⟨rfl, rfl, rfl⟩
    · exact powerAccounted_serves hs h hslots rfl rfl (by rw [hold]; decide) (by simp [Slot.enter]) ⟨rfl, rfl, rfl⟩
  | times i T _ h => exact powerAccounted_congr (h.coreEq_beside ⟨rfl, rfl, rfl, rfl, rfl, rfl⟩) hs
  | pins i n _ _ _ h => 
    exact powerAccounted_beside hs h (fun _ => rfl) rfl rfl rfl rfl (fun _ => rfl) .rfl (hs.thresholds i)
  | configures i n r hold _ h =>
    exact powerAccounted_serves hs h (fun _ => rfl) rfl rfl (by rw [hold]; decide) (by simp [Slot.enter]) ⟨rfl, rfl, rfl⟩
  | unpins i n _ h =>
    exact powerAccounted_beside hs h (fun _ => rfl) rfl rfl rfl rfl (fun _ => rfl) .rfl (hs.thresholds i)
  | joins i plan hold _ =>
    have hmem' : (s.slot i).state ∈ [SlotState.resetHold, .readyWait, .configuring, .roomWait, .joining, .running] := by
      rcases hold with h | ⟨h, _⟩ <;> rw [h] <;> decide
    exact powerAccounted_serves hs (changes_join i plan s) (fun _ => rfl) rfl rfl hmem' (by simp [Slot.enter]) ⟨rfl, rfl, rfl⟩
  | rooms i hold =>
    have hmem' : (s.slot i).state ∈ [SlotState.resetHold, .readyWait, .configuring, .roomWait, .joining, .running] := by
      rcases hold with h | ⟨h, _⟩ <;> rw [h] <;> decide
    exact powerAccounted_serves hs (changes_room i s) (fun _ => rfl) rfl rfl hmem' (by simp [Slot.enter]) ⟨rfl, rfl, rfl⟩
  | runs i hold h =>
    exact powerAccounted_serves hs h hslots rfl rfl (by rw [hold]; decide) (by simp [Slot.enter]) ⟨rfl, rfl, rfl⟩
  | power v hbudget hlimit => exact powerAccounted_power hs hbudget hlimit
  | cycle v _ _ _ _ _ _ _ _ _ _ h =>
    have hcore := powerAccounted_congr h.coreEq hs
    exact ⟨hcore.grants, hcore.committed, hcore.ramping, hcore.budget, hcore.rampLimit, hcore.queue, hcore.thresholds⟩
  | sets h _ =>
    have hcore := powerAccounted_congr h.coreEq hs
    exact ⟨hcore.grants, hcore.committed, hcore.ramping, hcore.budget, hcore.rampLimit, hcore.queue, hcore.thresholds⟩
  | sequencer h _ _ =>
    have hcore := powerAccounted_congr h.coreEq hs
    exact ⟨hcore.grants, hcore.committed, hcore.ramping, hcore.budget, hcore.rampLimit, hcore.queue, hcore.thresholds⟩

end Sys2Proof.Machine
end

section
/-!
PROOF. The pending plan but for the room queue's part, and SEL (08 R139, R141, R146, R154).
-/
namespace Sys2Proof.Machine

/-! ### Plans: their end, their order, their fit (08 R141) -/

theorem planTicks_sublist {p q : List PlanWindow} (h : p.Sublist q) : planTicks p ≤ planTicks q := by
  unfold planTicks
  induction h with
  | slnil => exact Nat.le_refl _
  | cons _ _ ih => exact Nat.le_trans ih (by simp only [List.map_cons, List.sum_cons, Nat.le_add_left])
  | cons_cons _ _ ih => simpa only [List.map_cons, List.sum_cons] using Nat.add_le_add_left ih _

theorem planFits_sublist {v : CycleSettings} {p q : List PlanWindow} (h : p.Sublist q) (hq : planFits v q = true) :
    planFits v p = true := by
  rw [planFits_iff] at hq ⊢
  intro limit hlimit
  rcases hq limit hlimit with hnil | hle
  · rw [hnil] at h
    exact .inl (List.sublist_nil.1 h)
  · exact .inr (Nat.le_trans (Nat.add_le_add_left (planTicks_sublist h) _) hle)

theorem precedes_iff (v w : PlanWindow) : v.precedes w = true ↔ v.rank < w.rank ∨ v.rank = w.rank ∧ v.slot < w.slot := by
  simp [PlanWindow.precedes]

/-- A window of a new slot keeps plan order. -/
theorem placeWindow_sorted {w : PlanWindow} {plan : List PlanWindow} (h : plan.Pairwise fun v w => v.precedes w = true)
    (hw : w.slot ∉ plan.map PlanWindow.slot) : (placeWindow w plan).Pairwise fun v w => v.precedes w = true := by
  induction plan with
  | nil => simp [placeWindow]
  | cons v plan ih =>
    rw [List.pairwise_cons] at h
    rw [List.map_cons, List.mem_cons, not_or] at hw
    unfold placeWindow
    split
    · rename_i hwv
      refine List.pairwise_cons.2 ⟨fun u hu => ?_, List.pairwise_cons.2 h⟩
      rcases List.mem_cons.1 hu with rfl | hu
      · exact hwv
      · have hvu := h.1 u hu
        rw [precedes_iff, Fin.lt_def] at hwv hvu ⊢
        omega
    · rename_i hwv
      refine List.pairwise_cons.2 ⟨fun u hu => ?_, ih h.2 hw.2⟩
      rcases (mem_placeWindow u w plan).1 hu with rfl | hu
      · rw [precedes_iff] at hwv ⊢
        have hne : u.slot.val ≠ v.slot.val := fun he => hw.1 (Fin.ext he)
        rw [Fin.lt_def] at hwv ⊢
        omega
      · exact h.1 u hu

/-! ### The pending plan -/

theorem planSound_iff (s : State) : s.planSound ↔ PlanAccounted s ∧ s.roomBlocked :=
  ⟨fun ⟨h1, h2, h3, h4, h5, h6, h7, h8, h9, h10, h11⟩ => ⟨⟨h1, h2, h3, h4, h5, h6, h7, h8, h9, h10⟩, h11⟩,
    fun ⟨⟨h1, h2, h3, h4, h5, h6, h7, h8, h9, h10⟩, h11⟩ => ⟨h1, h2, h3, h4, h5, h6, h7, h8, h9, h10, h11⟩⟩

theorem carries_congr {s t : State} {w : PlanWindow} (h : (t.slot w.slot).screening = (s.slot w.slot).screening)
    (hw : s.carries w) : t.carries w := by
  unfold State.carries at *; rw [h]; exact hw

theorem planAccounted_congr {s t : State} (h : CoreEq s t) (hs : PlanAccounted s) : PlanAccounted t where
  nodup := by rw [h.blocks.planner]; exact hs.nodup
  members i := by rw [h.blocks.planner, (h.slots i).state]; exact hs.members i
  order := by rw [h.blocks.planner]; exact hs.order
  fits := by rw [h.blocks.planner]; exact hs.fits
  carries w hw := by
    rw [h.blocks.planner] at hw
    exact carries_congr (h.slots _).screening (hs.carries w hw)
  off := by rw [h.blocks.planner]; exact hs.off
  ranges := by rw [h.blocks.planner]; exact hs.ranges

/-- A slot is planned in JOINING and RUNNING. -/
def SlotState.planned (st : SlotState) : Prop := st = .joining ∨ st = .running

/-- A slot changes that keeps its place in the plan, or that had none and gets none. -/
theorem planAccounted_beside {i : SlotId} {g : Slot → Slot} {s u t : State} (hs : PlanAccounted s) (h : Changes i g u t)
    (hslots : ∀ j, u.slot j = s.slot j) (hplan : u.planner.plan = s.planner.plan)
    (hsettings : u.planner.settings = s.planner.settings)
    (hstate : (g (s.slot i)).state.planned ↔ (s.slot i).state.planned)
    (hscreening : (s.slot i).state.planned → (g (s.slot i)).screening = (s.slot i).screening) : PlanAccounted t := by
  refine planAccounted_congr h.coreEq ⟨?_, fun j => ?_, ?_, ?_, fun w hw => ?_, ?_, ?_⟩
  · change (u.planner.plan.map PlanWindow.slot).Nodup
    rw [hplan]; exact hs.nodup
  · change j ∈ u.planner.plan.map PlanWindow.slot ↔ _
    rw [hplan, hs.members]
    by_cases hj : j = i
    · subst hj; rw [slot_updSlot_self, hslots]; exact hstate.symm
    · rw [slot_updSlot_ne _ _ hj, hslots]
  · change u.planner.plan.Pairwise _
    rw [hplan]; exact hs.order
  · change planFits u.planner.settings u.planner.plan = true
    rw [hplan, hsettings]; exact hs.fits
  · have hw' : w ∈ s.planner.plan := hplan ▸ hw
    refine carries_congr ?_ (hs.carries w hw')
    by_cases hj : w.slot = i
    · rw [hj, slot_updSlot_self, hslots]
      exact hscreening (hj ▸ (hs.members w.slot).1 (List.mem_map_of_mem hw'))
    · rw [slot_updSlot_ne _ _ hj, hslots]
  · change u.planner.settings.mode = .off → u.planner.plan = []
    rw [hplan, hsettings]; exact hs.off
  · rw [show (u.updSlot i g).planner.settings = s.planner.settings from hsettings]; exact hs.ranges

theorem not_planned {st : SlotState} (h : st.parkable = false) : ¬ st.planned := by
  rintro (rfl | rfl) <;> cases h

/-- A slot changes that has no place in the plan and gets none. -/
theorem planAccounted_elsewhere {i : SlotId} {g : Slot → Slot} {s u t : State} (hs : PlanAccounted s) (h : Changes i g u t)
    (hslots : ∀ j, u.slot j = s.slot j) (hplan : u.planner.plan = s.planner.plan)
    (hsettings : u.planner.settings = s.planner.settings) (hold : ¬ (s.slot i).state.planned)
    (hnew : ¬ (g (s.slot i)).state.planned) : PlanAccounted t :=
  planAccounted_beside hs h hslots hplan hsettings (iff_of_false hnew hold) fun hp => absurd hp hold

/-- A slot is powered down: its window leaves the plan (08 R145). -/
theorem planAccounted_drop {i : SlotId} {g : Slot → Slot} {s t : State} (hs : PlanAccounted s)
    (h : Changes i g (dropBlocks i s) t) (hnew : ¬ (g (s.slot i)).state.planned) : PlanAccounted t := by
  have hsub : (s.planner.plan.filter fun w => decide (w.slot ≠ i)).Sublist s.planner.plan := List.filter_sublist
  have hmem : ∀ j, j ∈ (s.planner.plan.filter fun w => decide (w.slot ≠ i)).map PlanWindow.slot ↔
      j ∈ s.planner.plan.map PlanWindow.slot ∧ j ≠ i := by
    intro j
    simp only [List.mem_map, List.mem_filter, decide_eq_true_eq]
    constructor
    · rintro ⟨w, ⟨hw, hi⟩, rfl⟩
      exact ⟨⟨w, hw, rfl⟩, hi⟩
    · rintro ⟨⟨w, hw, rfl⟩, hi⟩
      exact ⟨w, ⟨hw, hi⟩, rfl⟩
  refine planAccounted_congr h.coreEq
    ⟨(hsub.map _).nodup hs.nodup, fun j => (hmem j).trans ?_, hs.order.sublist hsub, planFits_sublist hsub hs.fits,
      fun w hw => ?_, fun hoff => ?_, hs.ranges⟩
  · by_cases hj : j = i
    · subst hj
      rw [slot_updSlot_self]
      exact iff_of_false (fun hc => hc.2 rfl) hnew
    · rw [slot_updSlot_ne _ _ hj, hs.members, dropBlocks_slot]
      exact and_iff_left hj
  · obtain ⟨hw, hne⟩ := List.mem_filter.1 hw
    refine carries_congr ?_ (hs.carries w hw)
    rw [slot_updSlot_ne _ _ (by simpa using hne)]
    rfl
  · change s.planner.plan.filter _ = []
    rw [hs.off hoff]; rfl

/-- A slot without a place joins the plan (08 R142). -/
theorem planAccounted_join {i : SlotId} {g : Slot → Slot} {plan : List PlanWindow} {s u t : State} (hs : PlanAccounted s)
    (h : Changes i g u t) (hslots : ∀ j, u.slot j = s.slot j) (hplan : u.planner.plan = plan)
    (hsettings : u.planner.settings = s.planner.settings) (hplace : tryPlace i s = some plan)
    (hold : ¬ (s.slot i).state.planned) (hnew : (g (s.slot i)).state = .joining)
    (hscreening : (g (s.slot i)).screening = (s.slot i).screening) : PlanAccounted t := by
  obtain ⟨rank, window, hmode, hrank, hwindow, rfl, hfits⟩ := tryPlace_some hplace
  have hnot : i ∉ s.planner.plan.map PlanWindow.slot := fun hm => hold ((hs.members i).1 hm)
  have hperm := (placeWindow_perm { slot := i, rank := rank, window := window } s.planner.plan).map PlanWindow.slot
  refine planAccounted_congr h.coreEq ⟨?_, fun j => ?_, ?_, ?_, fun w hw => ?_, ?_, ?_⟩
  · change (u.planner.plan.map PlanWindow.slot).Nodup
    rw [hplan, hperm.nodup_iff]
    exact List.nodup_cons.2 ⟨hnot, hs.nodup⟩
  · change j ∈ u.planner.plan.map PlanWindow.slot ↔ _
    rw [hplan, hperm.mem_iff, List.map_cons, List.mem_cons]
    by_cases hj : j = i
    · subst hj
      rw [slot_updSlot_self, hslots]
      exact iff_of_true (.inl rfl) (.inl hnew)
    · rw [slot_updSlot_ne _ _ hj, hslots, ← hs.members]
      exact or_iff_right hj
  · change u.planner.plan.Pairwise _
    rw [hplan]
    exact placeWindow_sorted hs.order hnot
  · change planFits u.planner.settings u.planner.plan = true
    rw [hplan, hsettings]
    exact hfits
  · have hw' : w ∈ placeWindow { slot := i, rank := rank, window := window } s.planner.plan := hplan ▸ hw
    rcases (mem_placeWindow w _ _).1 hw' with rfl | hw'
    · unfold State.carries
      rw [slot_updSlot_self, hslots, hscreening]
      exact ⟨hrank, hwindow⟩
    · have hne : w.slot ≠ i := fun he => hnot (he ▸ List.mem_map_of_mem hw')
      refine carries_congr ?_ (hs.carries w hw')
      rw [slot_updSlot_ne _ _ hne, hslots]
  · change u.planner.settings.mode = .off → _
    rw [hsettings]
    exact fun h => absurd h hmode
  · rw [show (u.updSlot i g).planner.settings = s.planner.settings from hsettings]; exact hs.ranges

/-- Without a slot in JOINING or RUNNING the plan is empty. -/
theorem plan_empty {s : State} (hs : PlanAccounted s) (h : s.anyPlanned = false) : s.planner.plan = [] := by
  rw [List.eq_nil_iff_forall_not_mem]
  intro w hw
  have hst := (hs.members w.slot).1 (List.mem_map_of_mem hw)
  unfold State.anyPlanned at h
  rw [List.any_eq_false] at h
  exact h (s.slot w.slot) (by simp [State.slot]) (by simpa using hst)

theorem Micro.planAccounted {s t : State} (h : Micro s t) (hq : s.queuesSound) (hs : PlanAccounted s) :
    PlanAccounted t := by
  have hslots : ∀ j, s.slot j = s.slot j := fun _ => rfl
  obtain ⟨_, _, hmem⟩ := id hq
  have hnot : ∀ {i : SlotId} {st : SlotState}, (s.slot i).state = st → ¬ st.planned → ¬ (s.slot i).state.planned :=
    fun h hn => h ▸ hn
  cases h with
  | soft h => exact planAccounted_congr h.coreEq hs
  | enters i st r a results T hold hnew _ _ h =>
    exact planAccounted_elsewhere hs h hslots rfl rfl (not_planned hold) (not_planned hnew)
  | amends i a results hold _ h =>
    exact planAccounted_elsewhere hs h hslots rfl rfl (not_planned hold) (not_planned hold)
  | drops i st r a T hnew _ _ h => exact planAccounted_drop hs (changes_drop h) (not_planned hnew)
  | grants e rest hqueue _ _ =>
    have hwait : (s.slot e.slot).state = .powerWait := (hmem e.slot).1.1 (by rw [hqueue]; simp)
    exact planAccounted_elsewhere hs (changes_grant e rest s) (fun _ => rfl) rfl rfl
      (hnot hwait (by simp [SlotState.planned])) (by simp [SlotState.planned, Slot.enter])
  | places i plan hroom hplace =>
    have hwait : (s.slot i).state = .roomWait := (hmem i).2.1 hroom
    exact planAccounted_join hs (changes_place i plan s) (fun _ => rfl) rfl rfl hplace
      (hnot hwait (by simp [SlotState.planned])) rfl rfl
  | waits i hold _ =>
    exact planAccounted_elsewhere hs (changes_wait i s) (fun _ => rfl) rfl rfl (not_planned hold.1)
      (by simp [SlotState.planned, Slot.enter])
  | ramps i T hold _ h =>
    exact planAccounted_elsewhere hs h (fun _ => rfl) rfl rfl (hnot hold (by simp [SlotState.planned]))
      (by simp [SlotState.planned, Slot.enter])
  | advances i st r T hst _ h =>
    rcases hst with ⟨hold, rfl⟩ | ⟨hold, rfl⟩
    · exact planAccounted_elsewhere hs h hslots rfl rfl (hnot hold (by simp [SlotState.planned]))
        (by simp [SlotState.planned, Slot.enter])
    · exact planAccounted_elsewhere hs h hslots rfl rfl (hnot hold (by simp [SlotState.planned]))
        (by simp [SlotState.planned, Slot.enter])
  | times i T _ h => exact planAccounted_beside hs h hslots rfl rfl .rfl fun _ => rfl
  | pins i n _ _ _ h => exact planAccounted_beside hs h (fun _ => rfl) rfl rfl .rfl fun _ => rfl
  | configures i n r hold _ h =>
    exact planAccounted_elsewhere hs h (fun _ => rfl) rfl rfl (hnot hold (by simp [SlotState.planned]))
      (by simp [SlotState.planned, Slot.enter])
  | unpins i n _ h => exact planAccounted_beside hs h (fun _ => rfl) rfl rfl .rfl fun _ => rfl
  | joins i plan hold hplace =>
    have hold' : ¬ (s.slot i).state.planned := by
      rcases hold with h | ⟨h, _⟩ <;> exact hnot h (by simp [SlotState.planned])
    exact planAccounted_join hs (changes_join i plan s) (fun _ => rfl) rfl rfl hplace hold' rfl rfl
  | rooms i hold =>
    have hold' : ¬ (s.slot i).state.planned := by
      rcases hold with h | ⟨h, _⟩ <;> exact hnot h (by simp [SlotState.planned])
    exact planAccounted_elsewhere hs (changes_room i s) (fun _ => rfl) rfl rfl hold' (by simp [SlotState.planned, Slot.enter])
  | runs i hold h =>
    exact planAccounted_beside hs h hslots rfl rfl (iff_of_true (.inr rfl) (.inl hold)) fun _ => rfl
  | power v _ _ =>
    have hslot : ∀ i, ((recomputeThresholds (storePower v s)).slot i).state = (s.slot i).state ∧
        ((recomputeThresholds (storePower v s)).slot i).screening = (s.slot i).screening := fun i => by
      unfold recomputeThresholds; rw [slot_mapSlots]; exact ⟨rfl, rfl⟩
    exact ⟨hs.nodup, fun i => by rw [(hslot i).1]; exact hs.members i, hs.order, hs.fits,
      fun w hw => carries_congr (hslot _).2 (hs.carries w hw), hs.off, hs.ranges⟩
  | cycle v hl1 hl2 ht1 ht2 hfits hoff hplanner _ _ _ h =>
    have hstate : ∀ i, (t.slot i).state = (s.slot i).state := fun i => (h.slots i).state
    have hscreening : ∀ i, (t.slot i).screening = (s.slot i).screening := fun i => (h.slots i).screening
    refine ⟨?_, fun i => ?_, ?_, ?_, fun w hw => ?_, fun hmode => ?_, ?_⟩
    · rw [hplanner]; exact hs.nodup
    · rw [hplanner, hstate]; exact hs.members i
    · rw [hplanner]; exact hs.order
    · rw [hplanner]; exact hfits
    · rw [hplanner] at hw; exact carries_congr (hscreening _) (hs.carries w hw)
    · rw [hplanner] at hmode ⊢
      rcases hoff hmode with h | h
      · exact hs.off h
      · exact plan_empty hs h
    · rw [hplanner]; exact ⟨hl1, hl2, ht1, ht2⟩
  | sets h _ =>
    have hcore := planAccounted_congr h.coreEq hs
    exact ⟨hcore.nodup, hcore.members, hcore.order, hcore.fits, hcore.carries, hcore.off, hcore.ranges⟩
  | sequencer h _ _ =>
    have hcore := planAccounted_congr h.coreEq hs
    exact ⟨hcore.nodup, hcore.members, hcore.order, hcore.fits, hcore.carries, hcore.off, hcore.ranges⟩

/-! ### SEL -/

theorem sel_congr {s t : State} (h : t.sequencer = s.sequencer) (i : SlotId) : t.sel i = s.sel i := by
  unfold State.sel; rw [h]

theorem selSound_core {s t : State} (h : CoreEq s t) (hs : s.selSound) : t.selSound :=
  selSound_congr hs (fun i => (h.slots i).state) (by rw [h.blocks.sequencer]) fun i hi => sel_congr h.blocks.sequencer i ▸ hi

/-- A slot changes, not out of RUNNING. -/
theorem selSound_changed {i : SlotId} {g : Slot → Slot} {s u t : State} (hs : s.selSound) (h : Changes i g u t)
    (hslots : ∀ j, u.slot j = s.slot j) (hseq : u.sequencer = s.sequencer)
    (hstate : (s.slot i).state = .running → (g (s.slot i)).state = .running) : t.selSound := by
  refine selSound_core h.coreEq ⟨?_, fun j hj => ?_⟩
  · change (u.sequencer.active.map ActiveWindow.slot).Nodup
    rw [hseq]; exact hs.1
  · have hsel : s.sel j = true := by rw [← sel_congr (t := u.updSlot i g) hseq j]; exact hj
    obtain ⟨hrun, hruns⟩ := hs.2 j hsel
    refine ⟨?_, by change runsIn u.sequencer.active j = true; rw [hseq]; exact hruns⟩
    by_cases hji : j = i
    · subst hji; rw [slot_updSlot_self, hslots]; exact hstate hrun
    · rw [slot_updSlot_ne _ _ hji, hslots]; exact hrun

theorem mute_slots (i : SlotId) (active : List ActiveWindow) :
    (active.map fun w => if w.slot = i then { w with muted := true } else w).map ActiveWindow.slot =
      active.map ActiveWindow.slot := by
  rw [List.map_map]
  refine List.map_congr_left fun w _ => ?_
  simp only [Function.comp_apply]
  split <;> rfl

theorem runsIn_mute {i j : SlotId} (h : j ≠ i) (active : List ActiveWindow) :
    runsIn (active.map fun w => if w.slot = i then { w with muted := true } else w) j = runsIn active j := by
  unfold runsIn
  rw [List.any_map]
  congr 1
  funext w
  simp only [Function.comp_apply]
  split
  · rename_i hw
    simp [hw, Ne.symm h]
  · rfl

/-- A slot is powered down: SEL is not its (08 R148). -/
theorem selSound_drop {i : SlotId} {g : Slot → Slot} {s t : State} (hs : s.selSound)
    (h : Changes i g (dropBlocks i s) t) : t.selSound := by
  refine selSound_core h.coreEq ⟨?_, fun j hj => ?_⟩
  · change ((s.sequencer.active.map fun w => if w.slot = i then { w with muted := true } else w).map
      ActiveWindow.slot).Nodup
    rw [mute_slots]; exact hs.1
  · have hboth : s.sel j = true ∧ j ≠ i := by
      change (match s.sequencer.run.filter fun run => decide (run.slot ≠ i) with
        | some run => decide (run.slot = j)
        | none => false) = true at hj
      unfold State.sel
      cases hr : s.sequencer.run with
      | none => rw [hr] at hj; cases hj
      | some run =>
        rw [hr] at hj
        simp only [Option.filter] at hj
        split at hj
        · rename_i run' hrun
          split at hrun
          · cases hrun
            rename_i hne
            refine ⟨hj, fun he => ?_⟩
            simp only [decide_eq_true_eq] at hj hne
            exact hne (hj.trans he)
          · cases hrun
        · cases hj
    obtain ⟨hrun, hruns⟩ := hs.2 j hboth.1
    refine ⟨?_, ?_⟩
    · rw [slot_updSlot_ne _ _ hboth.2]; exact hrun
    · change runsIn (s.sequencer.active.map _) j = true
      rw [runsIn_mute hboth.2]; exact hruns

theorem Micro.selSound {s t : State} (h : Micro s t) (hq : s.queuesSound) (hp : PlanAccounted s) (hs : s.selSound) :
    t.selSound := by
  have hslots : ∀ j, s.slot j = s.slot j := fun _ => rfl
  obtain ⟨_, _, hmem⟩ := id hq
  have hnot : ∀ {i : SlotId} {st st' : SlotState}, (s.slot i).state = st → st ≠ .running →
      (s.slot i).state = .running → st' = .running := fun h hn he => absurd (h.symm.trans he) hn
  have hquiet : ∀ {i : SlotId} {st' : SlotState}, (s.slot i).state.parkable = false →
      (s.slot i).state = .running → st' = .running := fun h he => by rw [he] at h; cases h
  cases h with
  | soft h => exact selSound_core h.coreEq hs
  | enters i st r a results T hold _ _ _ h => exact selSound_changed hs h hslots rfl (hquiet hold)
  | amends i a results _ _ h => exact selSound_changed hs h hslots rfl id
  | drops i st r a T _ _ _ h => exact selSound_drop hs (changes_drop h)
  | grants e rest hqueue _ _ =>
    have hwait : (s.slot e.slot).state = .powerWait := (hmem e.slot).1.1 (by rw [hqueue]; simp)
    exact selSound_changed hs (changes_grant e rest s) (fun _ => rfl) rfl (hnot hwait (by decide))
  | places i plan hroom _ =>
    exact selSound_changed hs (changes_place i plan s) (fun _ => rfl) rfl (hnot ((hmem i).2.1 hroom) (by decide))
  | waits i hold _ => exact selSound_changed hs (changes_wait i s) (fun _ => rfl) rfl (hquiet hold.1)
  | ramps i T hold _ h => exact selSound_changed hs h (fun _ => rfl) rfl (hnot hold (by decide))
  | advances i st r T hst _ h =>
    rcases hst with ⟨hold, _⟩ | ⟨hold, _⟩
    · exact selSound_changed hs h hslots rfl (hnot hold (by decide))
    · exact selSound_changed hs h hslots rfl (hnot hold (by decide))
  | times i T _ h => exact selSound_changed hs h hslots rfl id
  | pins i n _ _ _ h => exact selSound_changed hs h (fun _ => rfl) rfl id
  | configures i n r hold _ h => exact selSound_changed hs h (fun _ => rfl) rfl (hnot hold (by decide))
  | unpins i n _ h => exact selSound_changed hs h (fun _ => rfl) rfl id
  | joins i plan hold _ =>
    refine selSound_changed hs (changes_join i plan s) (fun _ => rfl) rfl ?_
    rcases hold with h | ⟨h, _⟩
    · exact hnot h (by decide)
    · exact hnot h (by decide)
  | rooms i hold =>
    refine selSound_changed hs (changes_room i s) (fun _ => rfl) rfl ?_
    rcases hold with h | ⟨h, _⟩
    · exact hnot h (by decide)
    · exact hnot h (by decide)
  | runs i _ h => exact selSound_changed hs h hslots rfl fun _ => rfl
  | power v _ _ =>
    refine selSound_congr hs (fun i => ?_) rfl fun i hi => hi
    unfold recomputeThresholds
    rw [slot_mapSlots]
    rfl
  | cycle v _ _ _ _ _ _ _ hactive hrun _ h =>
    refine selSound_congr hs (fun i => (h.slots i).state) hactive fun i hi => ?_
    unfold State.sel at hi ⊢
    rcases hrun with h | h <;> rw [h] at hi
    · exact hi
    · cases hi
  | sets h _ =>
    have hcore := selSound_core h.coreEq hs
    exact hcore
  | sequencer _ h _ => exact h hp.nodup hs

end Sys2Proof.Machine
end

section
/-!
PROOF. No power and no room is left idle: the power allowance and the pending plan with their last clauses.
-/
namespace Sys2Proof.Machine

theorem coreEq_withPending (s : State) (q : List Instr) : CoreEq s (s.withPending q) :=
  ⟨⟨rfl, rfl, rfl, rfl, rfl, rfl⟩, fun _ => ⟨rfl, rfl, rfl, rfl, rfl, rfl⟩⟩

/-! ### The power allowance -/

theorem slot_wake (c : Slot) : c.wake.state = .empty ∧ c.wake.grant = false ∧ c.wake.screening = Screening.absent :=
  ⟨rfl, rfl, rfl⟩

theorem powerAccounted_endReset (rateHigh : Bool) (s : State) : PowerAccounted (endReset rateHigh s) where
  grants i := by rw [slot_endReset]; rfl
  committed := by
    have hzero : (endReset rateHigh s).grantedPower = 0 := by
      unfold State.grantedPower
      simp only [slot_endReset, (slot_wake _).2.1, Bool.false_eq_true, if_false]
      rfl
    rw [hzero]
    rfl
  ramping := by
    have hzero : (endReset rateHigh s).countState .powering = 0 := by
      unfold State.countState
      simp only [slot_endReset, (slot_wake _).1]
      simp
    rw [hzero]
    rfl
  budget := Nat.zero_le _
  rampLimit := Nat.zero_le _
  queue e he := absurd he List.not_mem_nil
  thresholds i := by
    rw [slot_endReset]
    intro h
    rw [(slot_wake _).1] at h
    simp at h

theorem powerAccounted_assertReset {s : State} (hs : PowerAccounted s) : PowerAccounted (assertReset s) where
  grants i := by rw [slot_assertReset]; exact hs.grants i
  committed := by
    have hsame : (assertReset s).grantedPower = s.grantedPower := by
      unfold State.grantedPower
      simp only [slot_assertReset]
      rfl
    rw [hsame]; exact hs.committed
  ramping := by
    have hsame : (assertReset s).countState .powering = s.countState .powering := by
      unfold State.countState
      simp only [slot_assertReset]
      rfl
    rw [hsame]; exact hs.ramping
  budget := hs.budget
  rampLimit := hs.rampLimit
  queue e he := by rw [slot_assertReset]; exact hs.queue e he
  thresholds i := by rw [slot_assertReset]; exact hs.thresholds i

/-- Settles O9: every move accounts for what it commits and releases, and ends in an examination where it could let the
head of the queue in. -/
theorem stepKeepsPowerWithinBudget : Obligations.StepKeepsPowerWithinBudget := by
  intro s t hs h
  have hkeep := turns_keep (P := fun s => s.queuesSound ∧ PowerAccounted s ∧ s.arbiter.blocked)
    (fun s q h => ⟨h.1, powerAccounted_congr (coreEq_withPending s q) h.2.1, h.2.2⟩)
    (fun s t _ h hs => ?_)
    (fun rateHigh s _ => ⟨queuesSound_endReset rateHigh s, powerAccounted_endReset rateHigh s, fun _ _ h => nomatch h⟩)
    (fun s hs => ⟨queuesSound_assertReset hs.1, powerAccounted_assertReset hs.2.1, hs.2.2⟩)
    (fun i contact made s _ hs => ⟨queuesSound_congr (coreEq_setRaw i contact made s) hs.1,
      powerAccounted_congr (coreEq_setRaw i contact made s) hs.2.1, hs.2.2⟩)
    s t ⟨hs.1, (powerSound_iff s).1 hs.2⟩ h
  · exact (powerSound_iff t).2 hkeep.2
  · obtain ⟨hq, hp, hb⟩ := hs
    obtain ⟨hq', hp'⟩ := h.keeps (P := PowerAccounted) (fun _ _ => powerAccounted_congr)
      (fun _ _ h => h.powerAccounted) hq hp
    refine ⟨hq', hp', ?_⟩
    cases h with
    | move h => exact h.power hq hb
    | contacts i _ h => rw [h.blocks.arbiter]; exact hb

/-! ### The pending plan and SEL -/

theorem planAccounted_endReset (rateHigh : Bool) (s : State) : PlanAccounted (endReset rateHigh s) where
  nodup := List.nodup_nil
  members i := by
    rw [slot_endReset, (slot_wake _).1]
    exact iff_of_false List.not_mem_nil (by simp)
  order := .nil
  fits := rfl
  carries w hw := absurd hw List.not_mem_nil
  off _ := rfl
  ranges := ⟨by simp [endReset, State.reset, Planner.reset], by simp [endReset, State.reset, Planner.reset],
    by simp [endReset, State.reset, Planner.reset], by simp [endReset, State.reset, Planner.reset]⟩

theorem planAccounted_assertReset {s : State} (hs : PlanAccounted s) : PlanAccounted (assertReset s) where
  nodup := hs.nodup
  members i := by rw [slot_assertReset]; exact hs.members i
  order := hs.order
  fits := hs.fits
  carries w hw := carries_congr (by rw [slot_assertReset]; rfl) (hs.carries w hw)
  off := hs.off
  ranges := hs.ranges

/-- The plan with SEL, as every small move keeps them. -/
def PlanAndSel (s : State) : Prop := PlanAccounted s ∧ s.selSound

theorem PlanAndSel.congr {s t : State} (h : CoreEq s t) (hs : PlanAndSel s) : PlanAndSel t :=
  ⟨planAccounted_congr h hs.1, selSound_core h hs.2⟩

theorem Micro.planAndSel {s t : State} (h : Micro s t) (hq : s.queuesSound) (hs : PlanAndSel s) : PlanAndSel t :=
  ⟨h.planAccounted hq hs.1, h.selSound hq hs.1 hs.2⟩

theorem roomBlocked_sameCore {s t : State} (h : CoreEq s t) (hs : s.roomBlocked) : t.roomBlocked :=
  hs.congr (by rw [h.blocks.planner]) (by rw [h.blocks.planner]) (fun _ hj => h.blocks.planner ▸ hj)
    fun j _ => (h.slots j).screening

theorem roomBlocked_assertReset {s : State} (hs : s.roomBlocked) : (assertReset s).roomBlocked :=
  hs.congr rfl rfl (fun _ hj => hj) fun j _ => by rw [slot_assertReset]; rfl

/-- Settles O10: a window enters the plan in its place and leaves it with its slot, and each move that makes room walks
the room queue. -/
theorem stepKeepsPlanAndSel : Obligations.StepKeepsPlanAndSel := by
  intro s t hs h
  obtain ⟨hqueues, hplan, hsel⟩ := hs
  obtain ⟨hacc, hroom⟩ := (planSound_iff s).1 hplan
  have hkeep := turns_keep (P := fun s => s.queuesSound ∧ PlanAndSel s ∧ s.roomBlocked)
    (fun s q h => ⟨h.1, h.2.1.congr (coreEq_withPending s q), roomBlocked_sameCore (coreEq_withPending s q) h.2.2⟩)
    (fun s t _ h hs => ?_)
    (fun rateHigh s _ => ⟨queuesSound_endReset rateHigh s,
      ⟨planAccounted_endReset rateHigh s, selSound_of_idle List.nodup_nil rfl⟩, fun _ hj => absurd hj List.not_mem_nil⟩)
    (fun s hs => ⟨queuesSound_assertReset hs.1,
      ⟨planAccounted_assertReset hs.2.1.1, selSound_of_idle hs.2.1.2.1 rfl⟩, roomBlocked_assertReset hs.2.2⟩)
    (fun i contact made s _ hs => ⟨queuesSound_congr (coreEq_setRaw i contact made s) hs.1,
      hs.2.1.congr (coreEq_setRaw i contact made s), roomBlocked_sameCore (coreEq_setRaw i contact made s) hs.2.2⟩)
    s t ⟨hqueues, ⟨hacc, hsel⟩, hroom⟩ h
  · obtain ⟨_, ⟨hacc', hsel'⟩, hroom'⟩ := hkeep
    exact ⟨(planSound_iff t).2 ⟨hacc', hroom'⟩, hsel'⟩
  · obtain ⟨hq, hp, hb⟩ := hs
    obtain ⟨hq', hp'⟩ := h.keeps (P := PlanAndSel) (fun _ _ => PlanAndSel.congr) (fun _ _ h => h.planAndSel) hq hp
    refine ⟨hq', hp', ?_⟩
    cases h with
    | move h => exact h.room hq hp.1 hb
    | contacts i _ h => exact roomBlocked_sameCore (h.coreEq_beside ⟨rfl, rfl, rfl, rfl, rfl, rfl⟩) hb

end Sys2Proof.Machine
end


section
/-!
PROOF. The service link port, command by command: what the receiver does with a byte, a frame's end and a gap (10 R184 to
R188, R194), what a full queue and the restart wait discard (R190, R194), what the transmitter sends (R184, R190 to R192),
and WARM_RESTART.
-/
namespace Sys2Proof.Machine

theorem execAll_cons {c : Instr} {rest : List Instr} {s t : State} (h : exec c s = .next t) :
    execAll (c :: rest) s = execAll rest t := by simp [execAll, h]

theorem execAll_append (a b : List Instr) : ∀ s t : State, execAll a s = .next t → execAll (a ++ b) s = execAll b t := by
  induction a with
  | nil => intro s t h; cases h; rfl
  | cons c rest ih =>
    intro s t h
    unfold execAll at h
    split at h
    · next u hu => rw [List.cons_append, execAll_cons hu]; exact ih u t h
    · cases h
    · cases h

theorem saturate_eq (n : Nat) : saturate 65535 n = if n < 65535 then n + 1 else n := rfl

/-! ### Commands the port discards (10 R190, R194) -/

/-- Settles O18: in the restart wait and with a full queue `takeCommand` looks at no act. -/
theorem fullQueueAndRestartWaitDiscard : Obligations.FullQueueAndRestartWaitDiscard := by
  intro c s hhost hlive
  obtain ⟨kind, tag, act, _, hexec⟩ := exec_hostAct hhost
  rw [hexec, whenLive_live hlive]
  exact ⟨fun hwait => by rw [takeCommand_wait hwait], fun hwait hfull => by rw [takeCommand_full hwait hfull, saturate_eq]⟩

/-! ### The receiver (10 R184, R186, R187) -/

theorem takeByte_hunting {b : Byte} {s : State} (h : s.link.receiver = .hunting) :
    takeByte b s = if b = 0x5C then setReceiver (.receiving []) s else s := by
  unfold takeByte
  rw [h]
  rfl

theorem takeByte_length {b : Byte} {s : State} (h : s.link.receiver = .receiving []) :
    takeByte b s = if b.toNat ≤ 240 then setReceiver (.receiving [b]) s else dropChecked (setReceiver .hunting s) := by
  by_cases hb : b.toNat ≤ 240
  · simp [takeByte, h, Config.maxPayload, hb, Nat.not_lt_of_le hb]
  · simp [takeByte, h, Config.maxPayload, hb, Nat.lt_of_not_le hb]

theorem takeByte_data {b len : Byte} {rest : List Byte} {s : State} (h : s.link.receiver = .receiving (len :: rest))
    (hmore : rest.length < len.toNat + 3) : takeByte b s = setReceiver (.receiving (len :: rest ++ [b])) s := by
  simp [takeByte, h, awaitsLast, Nat.ne_of_lt hmore]

theorem takeByte_last {b len : Byte} {rest : List Byte} {s : State} (h : s.link.receiver = .receiving (len :: rest))
    (hlast : rest.length = len.toNat + 3) : takeByte b s = judgeFrame (len :: rest ++ [b]) s := by
  simp [takeByte, h, awaitsLast, hlast]

theorem dropChecked_wait {s : State} (h : s.link.restartWait = true) : dropChecked s = s := by simp [dropChecked, h]

theorem dropChecked_counted {s : State} (h : s.link.restartWait = false) : dropChecked s =
    { s with link := { s.link with checkFailures := saturate 65535 s.link.checkFailures } } := by simp [dropChecked, h]

theorem exec_receivedByteTaken (c : Character) (s : State) :
    exec (.receivedByteTaken c) s = whenLive (takeByte c.byte) s := rfl

/-- Settles O19: the receiver's four cases are those of `takeByte`. -/
theorem receiverTakesBytes : Obligations.ReceiverTakesBytes := by
  intro c s hlive b
  rw [exec_receivedByteTaken, whenLive_live hlive]
  refine ⟨c.getLsbD_byte, fun hhunt => ?hunting, fun hsync => ?length, fun len rest hdata hmore => ?data⟩
  case hunting => rw [takeByte_hunting hhunt]; rfl
  case length =>
    rw [takeByte_length hsync]
    by_cases hb : c.byte.toNat ≤ 240
    · rw [if_pos hb, if_pos hb]; rfl
    · rw [if_neg hb, if_neg hb]
      cases hwait : s.link.restartWait with
      | true => rw [dropChecked_wait (s := setReceiver .hunting s) hwait]; rfl
      | false => rw [dropChecked_counted (s := setReceiver .hunting s) hwait]; rfl
  case data => rw [takeByte_data hdata hmore]; rfl

/-- Settles O21. -/
theorem gapAbortDropsFrame : Obligations.GapAbortDropsFrame := by
  intro s hlive
  have hexec : exec .gapAbort s = .next (abortGap s) := whenLive_live hlive
  rw [hexec]
  refine ⟨fun taken hrec hwait => ?_, fun taken hrec hwait => ?_, fun hhunt => ?_⟩
  · simp [abortGap, hrec, setReceiver, hwait, saturate_eq]
  · simp [abortGap, hrec, setReceiver, hwait]
  · simp [abortGap, hhunt]

/-! ### The catalogue: a command's frame gives the command (10 R188, 11.2) -/

theorem word_of_bytes (w : Word) : BitVec.ofNat 16
    ((0 * 256 + (BitVec.ofNat 8 (w.toNat / 256)).toNat) * 256 + (BitVec.ofNat 8 w.toNat).toNat) = w := by
  apply BitVec.eq_of_toNat_eq
  have := w.isLt
  simp only [BitVec.toNat_ofNat]
  omega

theorem long_of_bytes (w : Long) : BitVec.ofNat 32
    ((((0 * 256 + (BitVec.ofNat 8 (w.toNat / 65536 / 256)).toNat) * 256 +
      (BitVec.ofNat 8 (w.toNat / 65536)).toNat) * 256 + (BitVec.ofNat 8 (w.toNat / 256)).toNat) * 256 +
      (BitVec.ofNat 8 w.toNat).toNat) = w := by
  apply BitVec.eq_of_toNat_eq
  have := w.isLt
  simp only [BitVec.toNat_ofNat]
  omega

/-- A field read at the place where it was written. -/
theorem wordOf_field16 (front : List Byte) (w : Word) (rest : List Byte) :
    wordOf (front ++ (field16 w ++ rest)) front.length = w := by
  rw [wordOf, fieldAt, List.drop_left]
  exact word_of_bytes w

theorem longOf_field32 (front : List Byte) (w : Long) (rest : List Byte) :
    longOf (front ++ (field32 w ++ rest)) front.length = w := by
  rw [longOf, fieldAt, List.drop_left]
  exact long_of_bytes w

theorem fromBytes_u16 (w : Word) : fromBytes (u16 w.toNat) = w.toNat := by
  have := w.isLt
  simp only [fromBytes, u16, List.foldl_cons, List.foldl_nil, BitVec.toNat_ofNat]
  omega

theorem slotTimesFields_payload (v : SlotTimesFields) : slotTimesFields (slotTimesPayload v) = v := by
  obtain ⟨a, b, c, d, e, f, g⟩ := v
  simp only [slotTimesFields, SlotTimesFields.mk.injEq]
  exact ⟨wordOf_field16 [] a _, wordOf_field16 (field16 a) b _, wordOf_field16 (field16 a ++ field16 b) c _,
    wordOf_field16 (field16 a ++ field16 b ++ field16 c) d _,
    wordOf_field16 (field16 a ++ field16 b ++ field16 c ++ field16 d) e _,
    wordOf_field16 (field16 a ++ field16 b ++ field16 c ++ field16 d ++ field16 e) f _,
    wordOf_field16 (field16 a ++ field16 b ++ field16 c ++ field16 d ++ field16 e ++ field16 f) g []⟩

theorem powerFields_payload (v : PowerFields) : powerFields (powerPayload v) = v := by
  obtain ⟨a, b, c, d, e, f⟩ := v
  simp only [powerFields, PowerFields.mk.injEq]
  exact ⟨wordOf_field16 [] a _, wordOf_field16 (field16 a) b _, wordOf_field16 (field16 a ++ field16 b) c _,
    wordOf_field16 (field16 a ++ field16 b ++ field16 c) d _,
    wordOf_field16 (field16 a ++ field16 b ++ field16 c ++ field16 d) e _,
    wordOf_field16 (field16 a ++ field16 b ++ field16 c ++ field16 d ++ field16 e) f []⟩

theorem policyFields_payload (v : PolicyFields) : policyFields (policyPayload v) = v := by
  obtain ⟨a, b, c, d, e, f, g⟩ := v
  simp only [policyFields, PolicyFields.mk.injEq]
  exact ⟨rfl, rfl, longOf_field32 [a, b] c _, longOf_field32 (a :: b :: field32 c) d _, rfl, rfl, rfl⟩

theorem recSetFields_payload (v : RecSetFields) : recSetFields (recSetPayload v) = v := by
  obtain ⟨a, b, c, d, e, f, g⟩ := v
  simp only [recSetFields, RecSetFields.mk.injEq]
  exact ⟨rfl, wordOf_field16 [a] b _, wordOf_field16 (a :: field16 b) c _, rfl,
    wordOf_field16 (a :: (field16 b ++ field16 c ++ [d])) e _, rfl, rfl⟩

theorem wordsOf_field16 (words : List Word) : wordsOf (words.flatMap field16) = words := by
  induction words with
  | nil => rfl
  | cons w rest ih =>
    have hw := word_of_bytes w
    rw [Nat.zero_mul, Nat.zero_add] at hw
    exact congr (congrArg List.cons hw) ih

theorem length_words (words : List Word) : (words.flatMap field16).length = 2 * words.length := by
  induction words with
  | nil => rfl
  | cons w rest ih => rw [List.flatMap_cons, List.length_append, ih, List.length_cons]; simp [field16, u16]; omega

theorem sized_fits {n : Nat} {p : List Byte} {act : State → State × Answer} (h : p.length = n) : sized n p act = act := by
  simp [sized, h]

theorem sizedLoad_payload (set : Byte) (offset : Word) (count : Byte) (words : List Word) (h1 : 1 ≤ words.length)
    (h2 : words.length ≤ 110) : sizedLoad (set :: (field16 offset ++ [count] ++ words.flatMap field16)) =
      answerParamLoad set offset count words := by
  have hlen : (set :: (field16 offset ++ [count] ++ words.flatMap field16)).length = 4 + 2 * words.length := by
    simp only [List.length_cons, List.length_append, length_words, field16, u16, List.length_nil]
    omega
  have hoffset := wordOf_field16 [set] offset ([count] ++ words.flatMap field16)
  rw [sizedLoad, hlen, if_pos (by omega)]
  have hdrop : (set :: (field16 offset ++ [count] ++ words.flatMap field16)).drop 4 = words.flatMap field16 := rfl
  rw [hdrop, wordsOf_field16]
  exact congrArg (fun o => answerParamLoad set o count words) hoffset

/-- What a host command's row means is what its frame asks for. -/
theorem exec_hostFrame {c : Instr} {kind tag : Byte} {payload : List Byte} (h : hostFrame c = some (kind, tag, payload))
    (hwf : c.wellFormed = true) : exec c = whenLive (takeCommand kind tag (frameCommand kind payload)) := by
  cases c with
  | setSlotTimes tag v =>
    cases h
    exact congrArg (fun v => whenLive (takeCommand 0x03 tag (answerSetSlotTimes v))) (slotTimesFields_payload v).symm
  | setPower tag v =>
    cases h
    exact congrArg (fun v => whenLive (takeCommand 0x04 tag (answerSetPower v))) (powerFields_payload v).symm
  | setCycle tag mode length tolerance =>
    cases h
    have hl := longOf_field32 [mode] length (field16 tolerance)
    have ht := wordOf_field16 (mode :: field32 length) tolerance []
    exact congr (congrArg (fun l t => whenLive (takeCommand 0x05 tag (answerSetCycle mode l t))) hl.symm) ht.symm
  | policyWrite tag v =>
    cases h
    exact congrArg (fun v => whenLive (takeCommand 0x20 tag (answerPolicyWrite v))) (policyFields_payload v).symm
  | keyLoad tag keySlot key =>
    cases h
    have hkey : (keySlot :: key).length = 17 := by simpa [Instr.wellFormed] using hwf
    exact congrArg (fun act => whenLive (takeCommand 0x24 tag act))
      (sized_fits (act := answerKeyLoad keySlot key) hkey).symm
  | paramBegin tag set length =>
    cases h
    exact congrArg (fun l => whenLive (takeCommand 0x30 tag (answerParamBegin set l)))
      (wordOf_field16 [set] length []).symm
  | paramLoad tag set offset count words =>
    cases h
    obtain ⟨h1, h2⟩ : 1 ≤ words.length ∧ words.length ≤ 110 := by simpa [Instr.wellFormed] using hwf
    exact congrArg (fun act => whenLive (takeCommand 0x31 tag act)) (sizedLoad_payload set offset count words h1 h2).symm
  | recSet tag v =>
    cases h
    exact congrArg (fun v => whenLive (takeCommand 0x50 tag (answerRecSet v))) (recSetFields_payload v).symm
  | recData tag offset count =>
    cases h
    exact congrArg (fun o => whenLive (takeCommand 0x55 tag (answerRecData o count)))
      (wordOf_field16 [] offset [count]).symm
  | partStatus | warmRestart | slotStatus | slotIdentity | slotConsent | slotPark | slotResume | slotRestart
  | slotDisable | slotEnable | slotClearBar | policyRead | policyDefault | policyFreeze | keyErase | keyStatus
  | paramStatus | paramFree | planRead | cycleStatus | recArm | recStop | recTrigger | recEvent | recRelease
  | recStatus => cases h; rfl
  | _ => cases h

/-- No host command's payload passes the longest one of the catalogue. -/
theorem hostFrame_length {c : Instr} {kind tag : Byte} {payload : List Byte}
    (h : hostFrame c = some (kind, tag, payload)) (hwf : c.wellFormed = true) : payload.length ≤ 240 := by
  cases c with
  | keyLoad tag keySlot key =>
    cases h
    have hkey : key.length = 16 := by simpa [Instr.wellFormed] using hwf
    simp [hkey]
  | paramLoad tag set offset count words =>
    cases h
    obtain ⟨_, h2⟩ : 1 ≤ words.length ∧ words.length ≤ 110 := by simpa [Instr.wellFormed] using hwf
    simp only [List.length_cons, List.length_append, length_words, field16, u16, List.length_nil]
    omega
  | setSlotTimes | setPower | setCycle | policyWrite | paramBegin | recSet | recData
  | partStatus | warmRestart | slotStatus | slotIdentity | slotConsent | slotPark | slotResume | slotRestart
  | slotDisable | slotEnable | slotClearBar | policyRead | policyDefault | policyFreeze | keyErase | keyStatus
  | paramStatus | paramFree | planRead | cycleStatus | recArm | recStop | recTrigger | recEvent | recRelease
  | recStatus => cases h; exact Nat.le_of_ble_eq_true rfl
  | _ => cases h

end Sys2Proof.Machine
end

section
/-!
PROOF. Whole frames at the service link port: how the end of a frame is judged (10 R186 to R188), that the characters of a
command's frame are the command (R185), and what goes out on TXD (R184, R190 to R192, R194).
-/
namespace Sys2Proof.Machine

/-! ### The judgment of a frame -/

theorem fieldAt_end (body : List Byte) (hi lo : Byte) : fieldAt (body ++ [hi, lo]) body.length 2 = fromBytes [hi, lo] := by
  rw [fieldAt, List.drop_left]
  rfl

/-- A frame of LEN, KIND, TAG, a payload and two CRC bytes, judged. -/
theorem judgeFrame_parts (len kind tag : Byte) (payload : List Byte) (hi lo : Byte) (s : State) :
    judgeFrame (len :: kind :: tag :: payload ++ [hi, lo]) s =
      if fromBytes [hi, lo] = (crc (len :: kind :: tag :: payload)).toNat then
        takeCommand kind tag (frameCommand kind payload) (setReceiver .hunting s)
      else dropChecked (setReceiver .hunting s) := by
  have hlen : (len :: kind :: tag :: payload ++ [hi, lo]).length - 2 = (len :: kind :: tag :: payload).length := by simp
  unfold judgeFrame
  dsimp only
  rw [hlen, List.take_left, fieldAt_end]
  rfl

/-- A kind of the catalogue with its one length answers BAD_LENGTH to every other one. -/
theorem sized_refuses {kind n : Nat} {p : List Byte} (act : State → State × Answer) (hk : allowedLengths kind = [n]) :
    allowedLengths kind ≠ [] ∧ (p.length ∉ allowedLengths kind → sized n p act = refuseWith .badLength) := by
  rw [hk]
  exact ⟨List.cons_ne_nil _ _, fun hp => if_neg fun hn => hp (by simp [hn])⟩

theorem sizedLoad_refuses {kind : Nat} {p : List Byte} (hk : kind = 0x31) :
    allowedLengths kind ≠ [] ∧ (p.length ∉ allowedLengths kind → sizedLoad p = refuseWith .badLength) := by
  subst hk
  refine ⟨by decide, fun hp => if_neg fun hn => hp ?_⟩
  obtain ⟨heven, hlow, hhigh⟩ := hn
  simp only [allowedLengths, if_pos, List.mem_map, List.mem_range]
  exact ⟨(p.length - 6) / 2, by omega, by omega⟩

/-- The catalogue (10 R188, 11.2): a kind it does not hold is UNKNOWN_KIND, a length it does not allow BAD_LENGTH. -/
theorem frameCommand_refuses (kind : Byte) (p : List Byte) :
    (allowedLengths kind.toNat = [] ∧ frameCommand kind p = refuseWith .unknownKind) ∨
      (allowedLengths kind.toNat ≠ [] ∧
        (p.length ∉ allowedLengths kind.toNat → frameCommand kind p = refuseWith .badLength)) := by
  unfold frameCommand
  split
  case h_23 heq => exact .inr (sizedLoad_refuses heq)
  case h_36 =>
    refine .inl ⟨?_, rfl⟩
    simp only [imp_false] at *
    simp [allowedLengths, *]
  all_goals exact .inr (sized_refuses _ (by simp [allowedLengths, *]))

theorem exec_frameReceived (c : Character) (s : State) : exec (.frameReceived c) s = whenLive (endFrame c.byte) s := rfl

theorem endFrame_last {b len : Byte} {rest : List Byte} {s : State} (h : s.link.receiver = .receiving (len :: rest))
    (hlast : rest.length = len.toNat + 3) : endFrame b s = judgeFrame (len :: rest ++ [b]) s := by
  simp [endFrame, h, awaitsLast, hlast]

theorem command_refused {kind tag : Byte} {act : State → State × Answer} {s : State} {status : Status} (h : s.takes)
    (hact : act = refuseWith status) : takeCommand kind tag act s = s.replied kind tag status [] := by
  rw [takeCommand_takes h, hact]
  rfl

/-- Settles O20: `judgeFrame` on the frame that the second CRC byte completes. -/
theorem frameEndIsJudged : Obligations.FrameEndIsJudged := by
  intro s kind tag hi last payload lo body hunting hlive hlen hrec
  have hend : endFrame last.byte s = judgeFrame (body ++ [hi, lo]) s := by
    have hfull : (kind :: tag :: payload ++ [hi]).length = (BitVec.ofNat 8 payload.length).toNat + 3 := by
      simp only [List.length_append, List.length_cons, List.length_nil, BitVec.toNat_ofNat]
      omega
    rw [endFrame_last (rest := kind :: tag :: payload ++ [hi]) hrec hfull]
    simp [body, lo]
  rw [exec_frameReceived, whenLive_live hlive, hend, judgeFrame_parts]
  refine ⟨fun hcrc hwait => ?wrong, fun hcrc => ⟨fun htakes hkind => ?unknown, fun htakes hkind hp => ?length,
    fun c hc hwf => ?command⟩⟩
  case wrong => rw [if_neg hcrc, dropChecked_counted (s := setReceiver .hunting s) hwait]; rfl
  case unknown =>
    rw [if_pos hcrc]
    rcases frameCommand_refuses kind payload with ⟨_, hact⟩ | ⟨hnot, _⟩
    · exact congrArg _ (command_refused (s := hunting) htakes hact)
    · exact absurd hkind hnot
  case length =>
    rw [if_pos hcrc]
    rcases frameCommand_refuses kind payload with ⟨hnot, _⟩ | ⟨_, hact⟩
    · exact absurd hnot hkind
    · exact congrArg _ (command_refused (s := hunting) htakes (hact hp))
  case command => rw [if_pos hcrc, exec_hostFrame hc hwf, whenLive_live (s := hunting) hlive]; rfl

/-! ### A frame received character by character -/

/-- The bytes between LEN and the frame's last are taken as data, one after another. -/
theorem execAll_data (len : Byte) (line : List Character) : ∀ (rest : List Byte) (s : State), s.inReset = false →
    s.link.receiver = .receiving (len :: rest) → rest.length + line.length ≤ len.toNat + 3 →
    execAll (line.map Instr.receivedByteTaken) s =
      .next (setReceiver (.receiving (len :: rest ++ line.map Character.byte)) s) := by
  induction line with
  | nil =>
    intro rest s _ hrec _
    simp only [List.map_nil, List.append_nil, ← hrec]
    rfl
  | cons c line ih =>
    intro rest s hlive hrec hroom
    rw [List.length_cons] at hroom
    have hstep : exec (.receivedByteTaken c) s = .next (setReceiver (.receiving (len :: rest ++ [c.byte])) s) := by
      rw [exec_receivedByteTaken, whenLive_live hlive, takeByte_data hrec (by omega)]
    rw [List.map_cons, execAll_cons hstep,
      ih (rest ++ [c.byte]) (setReceiver (.receiving (len :: rest ++ [c.byte])) s) hlive rfl (by simp; omega)]
    simp [setReceiver]

theorem execAll_singleton (c : Instr) (s : State) : execAll [c] s = exec c s := by
  unfold execAll
  split <;> simp [execAll, *]

/-- Settles O17: sync byte, LEN, the data up to the first CRC byte, and the judgment at the second. -/
theorem receivedFrameIsItsCommand : Obligations.ReceivedFrameIsItsCommand := by
  intro c s kind tag payload line hc hwf hlive hhunt hline
  obtain ⟨hi, lo, hcrcBytes⟩ : ∃ hi lo,
      u16 (crc (BitVec.ofNat 8 payload.length :: kind :: tag :: payload)).toNat = [hi, lo] := ⟨_, _, rfl⟩
  have hcrc := hcrcBytes ▸ fromBytes_u16 (crc (BitVec.ofNat 8 payload.length :: kind :: tag :: payload))
  have hlen := hostFrame_length hc hwf
  have hlenByte : (BitVec.ofNat 8 payload.length).toNat = payload.length := by
    rw [BitVec.toNat_ofNat]; omega
  have hbytes : line.map Character.byte =
      0x5C :: BitVec.ofNat 8 payload.length :: ((kind :: tag :: payload ++ [hi]) ++ [lo]) := by
    rw [hline, frameBytes, hcrcBytes]
    simp [syncByte]
  obtain ⟨sync, line, rfl, hsync, hbytes⟩ := List.map_eq_cons_iff.1 hbytes
  obtain ⟨first, line, rfl, hfirst, hbytes⟩ := List.map_eq_cons_iff.1 hbytes
  obtain ⟨data, last, rfl, hdata, hlast⟩ := List.map_eq_append_iff.1 hbytes
  obtain ⟨last, rest, rfl, hlo, hnil⟩ := List.map_eq_cons_iff.1 hlast
  obtain rfl : rest = [] := List.map_eq_nil_iff.1 hnil
  have hdataLength : data.length = payload.length + 3 := by
    have := congrArg List.length hdata
    simpa using this
  have h1 : exec (.receivedByteTaken sync) s = .next (setReceiver (.receiving []) s) := by
    rw [exec_receivedByteTaken, whenLive_live hlive, takeByte_hunting hhunt, if_pos hsync]
  have h2 : exec (.receivedByteTaken first) (setReceiver (.receiving []) s) =
      .next (setReceiver (.receiving [first.byte]) s) := by
    have hfits : first.byte.toNat ≤ 240 := by rw [hfirst, hlenByte]; exact hlen
    rw [exec_receivedByteTaken, whenLive_live (s := setReceiver (.receiving []) s) hlive,
      takeByte_length (s := setReceiver (.receiving []) s) rfl, if_pos hfits]
    rfl
  have h3 := execAll_data first.byte data [] (setReceiver (.receiving [first.byte]) s) hlive rfl (by
    rw [hfirst, hlenByte, hdataLength]; simp)
  rw [List.map_cons, execAll_cons h1, List.map_cons, execAll_cons h2, List.map_append,
    execAll_append _ _ _ _ h3, List.map_cons, List.map_nil, execAll_singleton, exec_receivedByteTaken,
    whenLive_live (by exact hlive), takeByte_last (len := first.byte) (rest := data.map Character.byte) rfl (by
      rw [List.length_map, hfirst, hlenByte, hdataLength]), hdata, hfirst, hlo]
  have hhunting : setReceiver .hunting s = s := by rw [setReceiver, ← hhunt]
  have hframe : BitVec.ofNat 8 payload.length :: (kind :: tag :: payload ++ [hi]) ++ [lo] =
      BitVec.ofNat 8 payload.length :: kind :: tag :: payload ++ [hi, lo] := by simp
  rw [hframe, judgeFrame_parts, if_pos hcrc, exec_hostFrame hc hwf, whenLive_live hlive]
  exact congrArg (fun s => Host.Outcome.next (takeCommand kind tag (frameCommand kind payload) s)) hhunting
/-! ### The transmitter (10 R184, R190 to R192, R194) -/

theorem exec_txFrameSent {s : State} (h : s.inReset = false) : exec .txFrameSent s = .next (endSending s) :=
  whenLive_live h

theorem linkRdy_transmit {s : State} (h : s.inReset = false) :
    (transmit s).linkRdy = (!s.link.restartWait && decide (s.link.replies.length < 4)) := by
  simp [State.linkRdy, h, Config.replyPlaces]

/-- A reply on the line that is not the restart's leaves its queue. -/
theorem endSending_reply {s : State} {r : Reply} {rest : List Reply} {bytes : List Byte}
    (htx : s.link.tx = some (.reply bytes)) (hr : s.link.replies = r :: rest)
    (hstays : s.link.restartWait = false ∨ rest ≠ []) :
    endSending s = transmit { s with link := { s.link with tx := none, replies := rest } } := by
  have hno : s.sendingRestartReply = false := by
    rcases hstays with hwait | hrest
    · simp [State.sendingRestartReply, hwait]
    · simp [State.sendingRestartReply, hr, hrest]
  unfold endSending
  rw [htx]
  simp [hno, hr]

theorem endSending_notice {s : State} {bytes : List Byte} (htx : s.link.tx = some (.notice bytes)) :
    endSending s = transmit { s with link := { s.link with tx := none } } := by
  unfold endSending
  rw [htx]

theorem endSending_idle {s : State} (htx : s.link.tx = none) : endSending s = s := by
  unfold endSending
  rw [htx]

/-- Settles O22. -/
theorem transmitterSendsRepliesThenNotices : Obligations.TransmitterSendsRepliesThenNotices := by
  intro s hlive noticed
  have hnoticed : ∀ n : Notice, n.frame = noticed n := by
    intro n
    cases n with
    | slot => rfl
    | cycle => rfl
    | recorder cause stateCode records newest refused => cases newest <;> rfl
  refine ⟨whenLive_live hlive, fun r rest htx hr => transmit_reply htx hr, fun n rest htx hr hn => ⟨?taken, ?counts, ?rest⟩,
    fun hnone => ?nothing, fun r rest bytes htx hr hstays => ?reply, fun bytes htx => ?notice, fun htx => ?idle,
    fun bytes htx => ?levels, txdLevels_idle, fun k level hk => ?bit, fun k hk => txd_high hk⟩
  case taken =>
    rw [transmit_notice htx hr hn, noticeTaken_eq, hnoticed]
  case counts => intro i; rw [transmit_notice htx hr hn, slot_noticeTaken]; rfl
  case rest => rw [transmit_notice htx hr hn, noticeTaken_eq]
  case nothing =>
    rcases hnone with hbusy | ⟨hr, hn⟩
    · obtain ⟨x, hx⟩ := Option.ne_none_iff_exists'.1 hbusy
      exact transmit_busy hx
    · exact transmit_nothing hr hn
  case reply =>
    exact ⟨_, by rw [exec_txFrameSent hlive, endSending_reply htx hr hstays], rfl, linkRdy_transmit (by exact hlive)⟩
  case notice => rw [exec_txFrameSent hlive, endSending_notice htx]
  case idle => rw [exec_txFrameSent hlive, endSending_idle htx]
  case levels => rcases htx with htx | htx <;> exact txdLevels_sending hlive htx
  case bit => simp [State.txd, hk]

/-- Settles O23. -/
theorem warmRestartEntersWait : Obligations.WarmRestartEntersWait := by
  intro s tag htakes
  refine ⟨_, command_takes htakes, rfl, ?_⟩
  rw [linkRdy_transmit (by exact htakes.1)]
  rfl

end Sys2Proof.Machine
end

section
/-!
PROOF. The reports and the settings that stand alone: PART_STATUS, CYCLE_STATUS, PLAN_READ, SLOT_STATUS and SLOT_IDENTITY
(01 R1, 03 R68, 08 R157, R158, 10 R193), SET_SLOT_TIMES (01 R26), the policy table and the keys (03 R57 to R60, 04 R69 to
R72), the monitor's frame (05 R83, R100) and RESET asserted (01 R29).
-/
namespace Sys2Proof.Machine

/-- A taken command that changes nothing and answers OK. -/
theorem command_reads {kind tag : Byte} {act : State → State × Answer} {s : State} {data : List Byte} (h : s.takes)
    (hact : act s = (s, okAnswer data)) : whenLive (takeCommand kind tag act) s = .next (s.replied kind tag .ok data) :=
  command_replied h hact

/-- A taken command, its effect and its answer given. -/
theorem command_acts {kind tag : Byte} {act : State → State × Answer} {s : State} {r : State × Answer} (h : s.takes)
    (hact : act s = r) : whenLive (takeCommand kind tag act) s = .next (transmit (queueReply kind tag r.2 r.1)) := by
  rw [command_takes h, hact]

/-! ### The reports of the part and the cycle -/

theorem slotBytes_eq (room : List SlotId) : room.flatMap (fun i => u8 i.val) = room.map slotByte := by
  induction room with
  | nil => rfl
  | cons i rest ih => rw [List.flatMap_cons, ih]; rfl

theorem flagByte_eq (b : Bool) : [flagByte b] = u8 (if b then 1 else 0) := by cases b <;> rfl

/-- Settles O25. -/
theorem reportsOfPartAndCycle : Obligations.ReportsOfPartAndCycle := by
  intro s tag htakes
  refine ⟨command_reads htakes rfl, ?cycle, fun position => ?plan⟩
  case cycle =>
    rw [← slotBytes_eq]
    refine (command_reads htakes rfl).trans ?_
    rw [cycleStatusBytes, cycleBytes]
  case plan =>
    intro window header
    show whenLive (takeCommand 0x40 tag (answerPlanRead position)) s = _
    by_cases hhigh : 11 < position.toNat
    · rw [if_pos hhigh]
      exact command_replied htakes (by rw [answerPlanRead, if_pos hhigh]; rfl)
    · rw [if_neg hhigh]
      cases hw : s.sequencer.active[position.toNat]? with
      | none => exact command_replied htakes (by rw [answerPlanRead, if_neg hhigh, hw]; rfl)
      | some w =>
        refine command_replied htakes ?_
        rw [answerPlanRead, if_neg hhigh, hw]
        simp only [windowBytes, flagByte_eq, ← List.append_assoc]
        rfl

/-! ### The reports of a slot -/

theorem optional_length {field : Nat → List Byte} {n : Nat} (h : ∀ v, (field v).length = n) (v : Option Nat) :
    (optional field v).length = n + 1 := by
  cases v with
  | none => simp [optional, h]
  | some v => simp [optional, h]

theorem u8_length (v : Nat) : (u8 v).length = 1 := rfl
theorem u16_length (v : Nat) : (u16 v).length = 2 := rfl

/-- The first nine bytes of a slot record. -/
def slotHead (i : SlotId) (c : Slot) : List Byte :=
  u8 i.val ++ u8 c.state.code ++ u8 c.reason.code ++ u8 (bitValue c.early 1 + bitValue c.late 2) ++
    u8 c.allowance ++ u8 c.faultCount ++ u8 c.overruns ++ u8 c.transitions ++
    u8 (bitValue c.grant 1 + bitValue (c.screening.window.isSome && c.screening.clamps.stretchClamped) 2 +
      bitValue (c.screening.window.isSome && c.screening.clamps.strobeRaised) 4 +
      bitValue (c.screening.window.isSome && c.screening.clamps.accessRaised) 8)

/-- The seven bytes of the transfer counts and the trace reference. -/
def slotCounts (c : Slot) : List Byte := u16 c.wordsWritten ++ u16 c.residual ++ optional u16 c.traceRef

/-- The six bytes of the policy's results. -/
def slotPolicy (c : Slot) : List Byte :=
  optional u8 (c.screening.matched.map Fin.val) ++ optional u8 c.screening.rank ++
    optional u8 (c.screening.paramSet.map Fin.val)

/-- The window descriptor with its presence byte. -/
def slotWindow (c : Slot) : List Byte :=
  match c.screening.window with
  | some d => flagByte true :: descriptorBytes d
  | none => flagByte false :: List.replicate 35 0

/-- The identity with its presence byte and length. -/
def slotIdent (c : Slot) : List Byte :=
  match c.screening.identity with
  | some r => flagByte true :: u8 r.length ++ padTo 64 r
  | none => flagByte false :: List.replicate 65 0

theorem slotStatusBytes_parts (i : SlotId) (c : Slot) :
    slotStatusBytes i c = slotHead i c ++ (slotCounts c ++ (slotPolicy c ++ (slotWindow c ++ slotIdent c))) := by
  simp only [slotStatusBytes, slotHead, slotCounts, slotPolicy, slotWindow, slotIdent, List.append_assoc] <;> rfl

theorem slotCounts_length (c : Slot) : (slotCounts c).length = 7 := by
  simp [slotCounts, optional_length u16_length, u16_length]

theorem slotPolicy_length (c : Slot) : (slotPolicy c).length = 6 := by
  simp [slotPolicy, optional_length u8_length]

theorem descriptorBytes_length (d : Descriptor) : (descriptorBytes d).length = 35 := by
  simp [descriptorBytes, u8, u16, u32]

theorem slotWindow_length (c : Slot) : (slotWindow c).length = 36 := by
  unfold slotWindow
  split
  · rw [List.length_cons, descriptorBytes_length]
  · rfl

/-- The slices of a slot record at the places of 11.5. -/
theorem slotStatusBytes_slices (i : SlotId) (c : Slot) :
    (slotStatusBytes i c).take 9 = slotHead i c ∧ ((slotStatusBytes i c).drop 9).take 7 = slotCounts c ∧
      ((slotStatusBytes i c).drop 16).take 6 = slotPolicy c ∧ ((slotStatusBytes i c).drop 22).take 36 = slotWindow c ∧
      (slotStatusBytes i c).drop 58 = slotIdent c ∧ (slotStatusBytes i c).length = 58 + (slotIdent c).length := by
  have hhead : (slotHead i c).length = 9 := rfl
  have hcounts := slotCounts_length c
  have hpolicy := slotPolicy_length c
  have hwindow := slotWindow_length c
  have h9 : (slotStatusBytes i c).drop 9 = slotCounts c ++ (slotPolicy c ++ (slotWindow c ++ slotIdent c)) := by
    rw [slotStatusBytes_parts, List.drop_left' hhead]
  have h16 : (slotStatusBytes i c).drop 16 = slotPolicy c ++ (slotWindow c ++ slotIdent c) := by
    rw [← List.drop_drop (i := 7) (j := 9), h9, List.drop_left' hcounts]
  have h22 : (slotStatusBytes i c).drop 22 = slotWindow c ++ slotIdent c := by
    rw [← List.drop_drop (i := 6) (j := 16), h16, List.drop_left' hpolicy]
  refine ⟨?_, ?_, ?_, ?_, ?_, ?_⟩
  · rw [slotStatusBytes_parts, List.take_left' hhead]
  · rw [h9, List.take_left' hcounts]
  · rw [h16, List.take_left' hpolicy]
  · rw [h22, List.take_left' hwindow]
  · rw [← List.drop_drop (i := 36) (j := 22), h22, List.drop_left' hwindow]
  · simp only [slotStatusBytes_parts, List.length_append]
    omega

theorem clampBits (shown a b c : Bool) (grant : Nat) :
    grant + bitValue (shown && a) 2 + bitValue (shown && b) 4 + bitValue (shown && c) 8 =
      grant + if shown then (if a then 2 else 0) + (if b then 4 else 0) + (if c then 8 else 0) else 0 := by
  cases shown with
  | false => rfl
  | true => simp [bitValue, Nat.add_assoc]

theorem answerSlotStatus_slotByte (i : SlotId) (s : State) :
    answerSlotStatus (slotByte i) s = (s, okAnswer (slotStatusBytes i (s.slot i))) := by
  rw [answerSlotStatus, onSlot_slotByte]

/-- Settles O26: the record's slices, then each of its optional parts present or absent. -/
theorem reportsOfSlot : Obligations.ReportsOfSlot := by
  intro s tag i htakes c window
  obtain ⟨hhead, hcounts, hpolicy, hwindow, hident, hlength⟩ := slotStatusBytes_slices i c
  refine ⟨⟨slotStatusBytes i c, command_reads htakes (answerSlotStatus_slotByte i s), ?_, hcounts, hpolicy,
    fun d hd => ?_, fun hd => ?_, fun r hr => ?_, fun hr => ?_, fun r hr hmax => ?_, fun hr => ?_⟩, ?_⟩
  · rw [hhead, slotHead, clampBits]
    rfl
  · rw [hwindow, slotWindow, hd]; rfl
  · rw [hwindow, slotWindow, hd]; rfl
  · rw [hident, slotIdent, hr]; rfl
  · rw [hident, slotIdent, hr]; rfl
  · rw [hlength, slotIdent, hr]
    simp only [List.length_cons, List.length_append, u8_length, padTo, List.length_replicate]
    omega
  · rw [hlength, slotIdent, hr]; rfl
  · cases hr : c.screening.identity with
    | none => exact command_replied htakes (by rw [answerSlotIdentity, onSlot_slotByte, hr]; rfl)
    | some r => exact command_replied htakes (by rw [answerSlotIdentity, onSlot_slotByte, hr]; rfl)

/-! ### SET_SLOT_TIMES (01 R26) -/

theorem clampTimes_carried (v : SlotTimesFields) : clampTimes (carriedTimes v) =
    { debounce := max 1 (min 255 v.debounce.toNat), rampLimit := max 1 (min 200 v.rampLimit.toNat),
      resetHold := max 1 (min 255 v.resetHold.toNat), readyTimeout := max 10 (min 10000 v.readyTimeout.toNat),
      consentTimeout := max 1 (min 255 v.consentTimeout.toNat), cooldown := max 100 (min 5000 v.cooldown.toNat),
      retryLimit := max 0 (min 3 v.retryLimit.toNat) } := by
  simp only [clampTimes, carriedTimes, clamp_eq _ _ _ (by decide : 1 ≤ 255), clamp_eq _ _ _ (by decide : 1 ≤ 200),
    clamp_eq _ _ _ (by decide : 10 ≤ 10000), clamp_eq _ _ _ (by decide : 100 ≤ 5000),
    clamp_eq _ _ _ (by decide : 0 ≤ 3)]

/-- Settles O27. -/
theorem setSlotTimesClamps : Obligations.SetSlotTimesClamps := by
  intro s tag v htakes near n seven carried
  have hn : clampTimes (carriedTimes v) = n := clampTimes_carried v
  refine command_replied (t := { s with times := n }) htakes ?_
  have hsame : (n ≠ carriedTimes v) ↔ ¬ seven = carried.map BitVec.toNat := by
    simp only [carriedTimes, n, seven, carried, SlotTimes.mk.injEq, List.map_cons, List.map_nil, List.cons.injEq, ne_eq,
      and_true]
  rw [answerSetSlotTimes, hn]
  simp only [clampStatus, hsame, decide_not, Bool.not_eq_true', decide_eq_false_iff_not, ite_not]
  rfl

/-! ### The monitor's frame (05 R83, R100) -/

/-- Settles O43. -/
theorem monitorFramePresentsRailDip : Obligations.MonitorFramePresentsRailDip := by
  intro s f hlive
  refine ⟨sampleFrame f s, whenLive_live hlive, ?_⟩
  by_cases hdip : f.rail.toNat < s.monitor.railDip
  · simp only [sampleFrame, if_pos hdip]
    exact ⟨rfl, fun i => by simp [presentTrigger, handFrame, State.slot], rfl, rfl⟩
  · simp only [sampleFrame, if_neg hdip, List.append_nil]
    exact ⟨rfl, fun i => by simp [handFrame, State.slot], rfl, rfl⟩

/-! ### RESET asserted (01 R29) -/

theorem exec_contactRawChange (i : SlotId) (contact : Contact) (made : Bool) (s : State) :
    exec (.contactRawChange i contact made) s = .next (if (s.slot i).raw contact = made then s
      else if s.inReset then s.updSlot i fun c => c.setRaw contact made
      else changeContact i contact made
        (catchUpIf (decide (contact = .late) && !made && (s.slot i).state.cardPresent) i s)) := rfl

theorem setRaw_same {c : Slot} {contact : Contact} {made : Bool} (h : c.raw contact = made) :
    c.setRaw contact made = c := by
  cases contact <;> (subst h; rfl)

/-- Under RESET the pin moves alone (log 5). -/
theorem exec_contactRawChange_reset {s : State} (h : s.inReset = true) (i : SlotId) (contact : Contact) (made : Bool) :
    exec (.contactRawChange i contact made) s = .next (s.setSlot i ((s.slot i).setRaw contact made)) := by
  rw [exec_contactRawChange, if_pos h]
  by_cases hsame : (s.slot i).raw contact = made
  · rw [if_pos hsame, setRaw_same hsame, setSlot_slot]
  · rw [if_neg hsame]
    rfl

/-- Settles O16: what `assertReset` writes, then the two ways in which a command does not act while it is held. -/
theorem resetAssertedReleasesLines : Obligations.ResetAssertedReleasesLines := by
  refine ⟨fun s => ⟨assertReset s, rfl, rfl, fun i => ⟨slot_assertReset s i, ?_⟩, rfl, rfl, rfl, rfl, rfl, rfl, rfl,
    fun k => ?_, rfl, rfl, rfl, rfl, rfl, rfl, rfl, rfl, rfl, rfl⟩, fun s c hreset hcold hassert hpin => ?_,
    fun s i made hreset => ⟨?_, ?_⟩⟩
  · simp [State.sel, assertReset]
  · exact txd_high (by rw [txdLevels_reset rfl]; exact Nat.zero_le _)
  · rcases exec_event c with ⟨rateHigh, rfl⟩ | rfl | ⟨i, contact, made, rfl⟩ | ⟨f, _, hc⟩
    · exact absurd rfl (hcold rateHigh)
    · exact absurd rfl hassert
    · exact absurd rfl (hpin i contact made)
    · rw [hc, whenLive_reset hreset]
  · exact exec_contactRawChange_reset hreset i .early made
  · exact exec_contactRawChange_reset hreset i .late made

end Sys2Proof.Machine
end

section
/-!
PROOF. The policy table and its freeze (03 R57, R58, R60), the keys (04 R69 to R72), the parameter sets (06 R109 to R112)
and the recorder's reports (09 R178, R179): one equation for each answer, and from these the obligations.
-/
namespace Sys2Proof.Machine

/-! ### The policy table -/

theorem answerPolicyWrite_frozen {v : PolicyFields} {s : State} (h : s.policy.frozen = true) :
    answerPolicyWrite v s = refuseWith .frozen s := by simp [answerPolicyWrite, h]

theorem answerPolicyWrite_entry {v : PolicyFields} {n : Fin 16} {e : PolicyEntry} {s : State}
    (h : s.policy.frozen = false) (hn : v.entry.toNat = n.val) (he : writtenEntry v = some e) :
    answerPolicyWrite v s = (storeEntry n e s, okAnswer (policyEntryBytes e)) := by
  simp [answerPolicyWrite, h, hn, indexOf_val, he]

theorem answerPolicyWrite_refused {v : PolicyFields} {s : State} (h : s.policy.frozen = false)
    (hv : indexOf 16 v.entry.toNat = none ∨ writtenEntry v = none) :
    answerPolicyWrite v s = refuseWith .badArgument s := by
  unfold answerPolicyWrite
  rw [if_neg (by simp [h])]
  rcases hv with hv | hv <;> rw [hv]
  cases indexOf 16 v.entry.toNat <;> rfl

theorem byte_eq {b c : Byte} (h : b.toNat = c.toNat) : b = c := BitVec.eq_of_toNat_eq h

theorem byte_ne {b c : Byte} (h : b.toNat ≠ c.toNat) : b ≠ c := fun e => h (congrArg _ e)

theorem entryKindOf_unknown {b : Byte} (h : 2 < b.toNat) : entryKindOf b = none := by
  have h0 : b ≠ 0 := byte_ne (by simpa using by omega)
  have h1 : b ≠ 1 := byte_ne (by simpa using by omega)
  have h2 : b ≠ 2 := byte_ne (by simpa using by omega)
  rw [entryKindOf, if_neg h0, if_neg h1, if_neg h2]

theorem policyActionOf_code {b : Byte} {a : PolicyAction} (h : b.toNat = a.code) : policyActionOf b = some a := by
  cases a with
  | allow => rw [byte_eq (c := 0) h]; rfl
  | consent => rw [byte_eq (c := 1) h]; rfl

theorem policyActionOf_unknown {b : Byte} (h : 1 < b.toNat) : policyActionOf b = none := by
  have h0 : b ≠ 0 := byte_ne (by simpa using by omega)
  have h1 : b ≠ 1 := byte_ne (by simpa using by omega)
  rw [policyActionOf, if_neg h0, if_neg h1]

theorem policySetOf_none {b : Byte} (h : b.toNat = 255) : policySetOf b = some none := by
  rw [byte_eq (c := 0xFF) h]; rfl

theorem policySetOf_some {b : Byte} {k : Fin 8} (h : b.toNat = k.val) : policySetOf b = some (some k) := by
  have hne : b ≠ 0xFF := byte_ne (by simp; omega)
  rw [policySetOf, if_neg hne, setArg_of h]
  rfl

theorem policySetOf_unknown {b : Byte} (h : 7 < b.toNat) (h255 : b.toNat ≠ 255) : policySetOf b = none := by
  have hne : b ≠ 0xFF := byte_ne (by simpa using h255)
  rw [policySetOf, if_neg hne, setArg_beyond h]
  rfl

theorem writtenEntry_accept {v : PolicyFields} {action : PolicyAction} {set : Option (Fin 8)} (hk : v.kind.toNat = 1)
    (ha : v.action.toNat = action.code) (hr : v.rank.toNat ≠ 0) (hs : policySetOf v.set = some set) :
    writtenEntry v = some { kind := .accept, pattern := v.pattern, mask := v.mask, action := action,
                            rank := v.rank.toNat, set := set } := by
  have hrank : v.rank ≠ 0 := byte_ne (by simpa using hr)
  have hkind : entryKindOf v.kind = some .accept := by rw [byte_eq (c := 1) hk]; rfl
  simp only [writtenEntry, hkind, policyActionOf_code ha, hs, if_neg hrank]

/-- The faults of an entry's operands (03 R57). -/
theorem writtenEntry_none {v : PolicyFields} (h : 2 < v.kind.toNat ∨ v.kind.toNat = 1 ∧
    (1 < v.action.toNat ∨ v.rank.toNat = 0 ∨ 7 < v.set.toNat ∧ v.set.toNat ≠ 255)) : writtenEntry v = none := by
  rcases h with hkind | ⟨hkind, hrest⟩
  · simp [writtenEntry, entryKindOf_unknown hkind]
  · have hkind : entryKindOf v.kind = some .accept := by rw [byte_eq (c := 1) hkind]; rfl
    unfold writtenEntry
    rw [hkind]
    rcases hrest with haction | hrank | ⟨hset, h255⟩
    · simp [policyActionOf_unknown haction]
    · have hrank : v.rank = 0 := byte_eq hrank
      cases policyActionOf v.action with
      | none => rfl
      | some a => cases policySetOf v.set <;> simp [hrank]
    · simp [policySetOf_unknown hset h255]

theorem policyEntryBytes_eq (e : PolicyEntry) : policyEntryBytes e = u8 e.kind.code ++ u32 e.pattern.toNat ++
    u32 e.mask.toNat ++ u8 e.action.code ++ u8 e.rank ++ [match e.set with
      | some n => BitVec.ofNat 8 n.val
      | none => 0xFF] := by
  cases h : e.set <;> simp [policyEntryBytes, h, u8]

theorem answerPolicyRead_entry {b : Byte} {n : Fin 16} (h : b.toNat = n.val) (s : State) : answerPolicyRead b s =
    (s, okAnswer (policyEntryBytes s.policy.entries[n] ++ u8 s.policy.default.code ++ [flagByte s.policy.frozen])) := by
  simp [answerPolicyRead, h, indexOf_val]

/-- Settles O34. -/
theorem policyWriteReadFreeze : Obligations.PolicyWriteReadFreeze := by
  intro s tag htakes bytes wrote
  have writes : ∀ {v : PolicyFields} {n : Fin 16} {e : PolicyEntry}, s.policy.frozen = false → v.entry.toNat = n.val →
      writtenEntry v = some e → exec (.policyWrite tag v) s = .next (wrote n e) := by
    intro v n e hopen hn he
    refine (command_replied (act := answerPolicyWrite v) htakes (answerPolicyWrite_entry hopen hn he)).trans ?_
    rw [policyEntryBytes_eq]
    rfl
  refine ⟨fun v hfrozen => ?frozen, fun v hopen hbad => ?refused, fun v n hopen hn => ⟨fun hk => ?unused,
    fun hk => ?reject, fun action hk ha hr => ⟨fun hs => ?noSet, fun k hs => ?set⟩⟩, fun b hb => ?beyond,
    fun b n hb => ?read, command_replied htakes rfl⟩
  case frozen => exact command_replied htakes (answerPolicyWrite_frozen hfrozen)
  case refused => exact command_replied htakes (answerPolicyWrite_refused hopen (hbad.imp indexOf_of_le writtenEntry_none))
  case unused =>
    have hkind : entryKindOf v.kind = some .unused := by rw [byte_eq (c := 0) hk]; rfl
    exact writes hopen hn (by rw [writtenEntry, hkind]; rfl)
  case reject =>
    have hkind : entryKindOf v.kind = some .reject := by rw [byte_eq (c := 2) hk]; rfl
    exact writes hopen hn (by rw [writtenEntry, hkind]; rfl)
  case noSet => exact writes hopen hn (writtenEntry_accept hk ha hr (policySetOf_none hs))
  case set => exact writes hopen hn (writtenEntry_accept hk ha hr (policySetOf_some hs))
  case beyond => exact command_replied htakes (by rw [answerPolicyRead, indexOf_of_le hb]; rfl)
  case read =>
    refine (command_reads htakes (answerPolicyRead_entry hb s)).trans ?_
    rw [policyEntryBytes_eq, flagByte_eq] <;> rfl

/-! ### The keys -/

theorem flagByte_if (b : Bool) : flagByte b = if b then 0x01 else 0x00 := by cases b <;> rfl

theorem loadedBytes_eq (keys : Vector KeySlot 4) :
    loadedBytes keys = keys.toList.map fun k => if k.loaded then 0x01 else 0x00 := by
  simp only [loadedBytes, flagByte_if]

theorem answerKeyLoad_frozen {b : Byte} {key : List Byte} {s : State} (hkey : key.length = 16)
    (h : s.policy.frozen = true) : answerKeyLoad b key s = refuseWith .frozen s := by simp [answerKeyLoad, hkey, h]

theorem answerKeyLoad_beyond {b : Byte} {key : List Byte} {s : State} (hkey : key.length = 16)
    (h : s.policy.frozen = false) (hb : 3 < b.toNat) : answerKeyLoad b key s = refuseWith .badArgument s := by
  simp [answerKeyLoad, hkey, h, keyArg_beyond hb]

theorem answerKeyLoad_key {b : Byte} {k : Fin 4} {key : List Byte} {s : State} (hkey : key.length = 16)
    (h : s.policy.frozen = false) (hb : b.toNat = k.val) :
    answerKeyLoad b key s = storeKey k { loaded := true, key := key } s := by
  simp [answerKeyLoad, hkey, h, keyArg_of hb]

theorem answerKeyErase_frozen {b : Byte} {s : State} (h : s.policy.frozen = true) :
    answerKeyErase b s = refuseWith .frozen s := by simp [answerKeyErase, h]

theorem answerKeyErase_beyond {b : Byte} {s : State} (h : s.policy.frozen = false) (hb : 3 < b.toNat) :
    answerKeyErase b s = refuseWith .badArgument s := by simp [answerKeyErase, h, keyArg_beyond hb]

theorem answerKeyErase_key {b : Byte} {k : Fin 4} {s : State} (h : s.policy.frozen = false) (hb : b.toNat = k.val) :
    answerKeyErase b s = storeKey k KeySlot.empty s := by simp [answerKeyErase, h, keyArg_of hb]

theorem storeKey_eq (k : Fin 4) (slot : KeySlot) (s : State) : storeKey k slot s =
    ({ s with keys := s.keys.set k slot }, { status := .ok, data := u8 k.val ++
      ((s.keys.set k slot).toList.map fun k => if k.loaded then 0x01 else 0x00) }) := by
  simp only [storeKey, loadedBytes_eq]
  rfl

/-- Settles O36. -/
theorem keysLoadedAndErased : Obligations.KeysLoadedAndErased := by
  intro s tag htakes flags
  refine ⟨fun b key hkey => ⟨fun hfrozen => ?_, fun hopen hb => ?_, fun k hopen hb => ?_⟩,
    fun b => ⟨fun hfrozen => ?_, fun hopen hb => ?_, fun k hopen hb => ?_⟩, ?_⟩
  · exact command_replied htakes (answerKeyLoad_frozen hkey hfrozen)
  · exact command_replied htakes (answerKeyLoad_beyond hkey hopen hb)
  · exact command_replied htakes ((answerKeyLoad_key hkey hopen hb).trans (storeKey_eq k _ s))
  · exact command_replied htakes (answerKeyErase_frozen hfrozen)
  · exact command_replied htakes (answerKeyErase_beyond hopen hb)
  · exact command_replied htakes ((answerKeyErase_key hopen hb).trans (storeKey_eq k _ s))
  · exact command_reads htakes (by rw [answerKeyStatus, loadedBytes_eq])

/-! ### The parameter sets -/

theorem onSet_of {b : Byte} {n : Fin 8} (h : b.toNat = n.val) (act : Fin 8 → State → State × Answer) (s : State) :
    onSet b act s = act n s := by simp [onSet, setArg_of h]

theorem onSet_beyond {b : Byte} (h : 7 < b.toNat) (act : Fin 8 → State → State × Answer) (s : State) :
    onSet b act s = refuseWith .badArgument s := by simp [onSet, setArg_beyond h]

theorem setAnswer_store (status : Status) (n : Fin 8) (p : ParamSet) (s : State) :
    setAnswer status n (storeSet n p s) = (storeSet n p s, { status := status, data := paramBytes p }) := by
  simp [setAnswer, storeSet]

/-- Settles O37. -/
theorem paramBeginFreeStatus : Obligations.ParamBeginFreeStatus := by
  intro s tag b htakes bytes
  refine ⟨fun length hb => ⟨?_, ?_, ?_⟩, fun n hb => ⟨?_, fun hpins => ⟨fun length => ?_, ?_⟩,
    fun hpins => ⟨fun length hrange => ?_, fun length hlow hhigh => ?_, ?_⟩⟩⟩
  · exact command_replied htakes (by rw [answerParamBegin, onSet_beyond hb]; rfl)
  · exact command_replied htakes (by rw [answerParamStatus, onSet_beyond hb]; rfl)
  · exact command_replied htakes (by rw [answerParamFree, onSet_beyond hb]; rfl)
  · exact command_replied htakes (by rw [answerParamStatus, onSet_of hb]; rfl)
  · exact command_replied htakes (by rw [answerParamBegin, onSet_of hb, if_pos (Nat.ne_of_gt hpins)]; rfl)
  · exact command_replied htakes (by rw [answerParamFree, onSet_of hb, if_pos (Nat.ne_of_gt hpins)]; rfl)
  · exact command_replied htakes (by
      rw [answerParamBegin, onSet_of hb, if_neg (Classical.not_not.2 hpins), if_pos hrange]; rfl)
  · intro begun
    have hset : { s.sets[n] with state := .loading, length := length.toNat, words := [] } = begun := by
      simp only [begun, ← hpins]
    exact command_replied htakes (by
      rw [answerParamBegin, onSet_of hb, if_neg (Classical.not_not.2 hpins), if_neg (by omega), hset, setAnswer_store]; rfl)
  · exact command_replied htakes (by rw [answerParamFree, onSet_of hb, if_neg (Classical.not_not.2 hpins)]; rfl)

/-- The answers of PARAM_LOAD in the order of 06 R110. -/
theorem answerParamLoad_of {b : Byte} {n : Fin 8} (hb : b.toNat = n.val) (offset : Word) (count : Byte)
    {words : List Word} (h1 : 1 ≤ words.length) (h2 : words.length ≤ 110) (s : State) :
    answerParamLoad b offset count words s =
      if s.sets[n].pins ≠ 0 then setAnswer .setInUse n s
      else if s.sets[n].state ≠ .loading then setAnswer .wrongState n s
      else if count.toNat < 1 ∨ 110 < count.toNat then setAnswer .badArgument n s
      else if words.length ≠ count.toNat then refuseWith .badLength s
      else if offset.toNat ≠ s.sets[n].written then setAnswer .badArgument n s
      else if s.sets[n].length < offset.toNat + count.toNat then setAnswer .badArgument n s
      else setAnswer .ok n (loadWords n words s) := by
  rw [answerParamLoad, if_neg (by omega), onSet_of hb]

theorem loadWords_more {n : Fin 8} {words : List Word} {s : State}
    (h : (s.sets[n].words ++ words).length ≠ s.sets[n].length) :
    loadWords n words s = storeSet n { s.sets[n] with words := s.sets[n].words ++ words } s := by
  simp only [loadWords, if_neg h]

theorem loadWords_complete {n : Fin 8} {words : List Word} {s : State}
    (h : (s.sets[n].words ++ words).length = s.sets[n].length) : loadWords n words s =
      announceSet n (storeSet n { s.sets[n] with words := s.sets[n].words ++ words, state := .ready } s) := by
  simp only [loadWords, if_pos h]

theorem slot_announceSet_eq (n : Fin 8) (s : State) (i : SlotId) : (announceSet n s).slot i =
    { s.slot i with inbox := { (s.slot i).inbox with announcements := (s.slot i).inbox.announcements ++ [n] } } := by
  simp [announceSet, State.slot]

/-- Settles O38. -/
theorem paramLoadAppendsWords : Obligations.ParamLoadAppendsWords := by
  intro s tag b offset count words htakes h1 h2 bytes outcome
  refine ⟨fun hb => command_replied htakes (by rw [answerParamLoad, if_neg (by omega), onSet_beyond hb]; rfl), ?_⟩
  intro n hb p refused counted placed
  refine ⟨fun hpins => ?pinned, fun hpins hstate => ?wrongState, fun hpins hstate hcount => ?range,
    fun hpins hstate hcount hlen => ?length, fun hpins hstate hcount hlen hplace => ?place,
    fun hpins hstate hcount hlen hplace => ⟨fun hmore => ?more, fun hlast => ?complete⟩⟩
  all_goals have hanswer := answerParamLoad_of hb offset count h1 h2 s
  case pinned => exact command_replied htakes (hanswer.trans (by rw [if_pos (Nat.ne_of_gt hpins)]; rfl))
  all_goals rw [if_neg (Classical.not_not.2 hpins)] at hanswer
  case wrongState => exact command_replied htakes (hanswer.trans (by rw [if_pos hstate]; rfl))
  all_goals rw [if_neg (Classical.not_not.2 hstate)] at hanswer
  case range =>
    have hbad : count.toNat < 1 ∨ 110 < count.toNat := by simp only [counted] at hcount; omega
    exact command_replied htakes (hanswer.trans (by rw [if_pos hbad]; rfl))
  all_goals rw [if_neg (by simp only [counted] at hcount; omega)] at hanswer
  case length => exact command_replied htakes (hanswer.trans (by rw [if_pos hlen]; rfl))
  all_goals rw [if_neg (Classical.not_not.2 hlen)] at hanswer
  case place =>
    refine command_replied htakes (hanswer.trans ?_)
    by_cases hoffset : offset.toNat = s.sets[n].written
    · rw [if_neg (Classical.not_not.2 hoffset), if_pos (Nat.lt_of_not_le fun hle => hplace ⟨hoffset, hle⟩)]
      rfl
    · rw [if_pos hoffset]
      rfl
  all_goals
    obtain ⟨hoffset, hroom⟩ := hplace
    change offset.toNat = s.sets[n].written at hoffset
    rw [if_neg (Classical.not_not.2 hoffset), if_neg (Nat.not_lt.2 hroom)] at hanswer
    have hloaded : (s.sets[n].words ++ words).length = offset.toNat + count.toNat := by
      rw [List.length_append, hlen, hoffset]
      rfl
  case more =>
    have hnot : (s.sets[n].words ++ words).length ≠ s.sets[n].length := by rw [hloaded]; exact Nat.ne_of_lt hmore
    rw [loadWords_more hnot, setAnswer_store] at hanswer
    exact command_replied htakes hanswer
  case complete =>
    have hall : (s.sets[n].words ++ words).length = s.sets[n].length := by rw [hloaded]; exact hlast
    rw [loadWords_complete hall] at hanswer
    refine ⟨_, command_acts htakes hanswer, rfl, fun i => ?_, ?_, rfl, rfl⟩
    · exact slot_announceSet_eq n _ i
    · refine queueReply_answers (s := s) (t := announceSet n _) rfl |>.trans ?_
      simp [setAnswer, announceSet, storeSet, paramBytes, bytes, p, ParamSet.written]

/-! ### The recorder's reports -/

/-- Settles O58. -/
theorem recorderReports : Obligations.RecorderReports := by
  intro s tag htakes r v frames bit
  have hbit : ∀ b : Bool, [flagByte b] = bit b := by
    intro b
    cases b <;> rfl
  refine ⟨fun hnone => ?none, fun e rest he => ?event, fun offset count => ?frames, ?status⟩
  case none => exact command_replied htakes (by rw [answerRecEvent, hnone]; rfl)
  case event =>
    refine (command_reads (act := answerRecEvent) htakes (by rw [answerRecEvent, he])).trans ?_
    rw [eventBytes, hbit]
    cases e.source.slot <;> rfl
  case frames =>
    intro allowed
    have hframes : s.recorder.frameCount = frames := rfl
    have hrange : count.toNat < 1 ∨ 8 < count.toNat ∨ s.recorder.frameCount < offset.toNat + count.toNat ↔
        ¬ allowed := by
      simp only [allowed]
      omega
    refine ⟨fun hbad => ?_, fun hok hnone => ?_, fun e rest hok he => ?_⟩
    · exact command_replied htakes (by rw [answerRecData, if_pos (hrange.2 hbad)]; rfl)
    · exact command_replied htakes (by rw [answerRecData, if_neg fun h => hrange.1 h hok, hnone]; rfl)
    · exact command_reads htakes (by rw [answerRecData, if_neg fun h => hrange.1 h hok, he]; rfl)
  case status =>
    refine (command_reads (act := answerRecStatus) htakes rfl).trans ?_
    have hlatches : ∀ a b : Bool, [flagByte a, flagByte b] = bit a ++ bit b := by
      intro a b
      rw [← hbit, ← hbit]
      rfl
    rw [recStatusBytes, recSettingsBytes, hlatches]
    simp only [hbit, List.append_assoc, Option.map_bind]
    cases s.recorder.state <;> rfl

end Sys2Proof.Machine
end

section
/-!
PROOF. The cold reset (01 R29 and the other chapters' reset rules): the values it leaves, and that the machine after reset
has every safety property.
-/
namespace Sys2Proof.Machine

theorem txd_idle {s : State} (h : s.link.tx = none) (k : Nat) : s.txd k = true :=
  txd_high (by rw [txdLevels_idle h]; exact Nat.zero_le _)

/-- Settles O15: `endReset` and the reset values it takes. -/
theorem coldResetTakesResetValues : Obligations.ColdResetTakesResetValues := by
  intro s rateHigh
  refine ⟨endReset rateHigh s, rfl, rfl, rfl, fun i => ?_, rfl, rfl, fun n => ?_, rfl, rfl, fun k => ?_, rfl, rfl,
    fun n => ?_, rfl, rfl, rfl, rfl, rfl, rfl, rfl, rfl, rfl, rfl, rfl, rfl, rfl, rfl, rfl, rfl, rfl, rfl, rfl, rfl,
    rfl, rfl, rfl, rfl, rfl, rfl, rfl, rfl, txd_idle rfl⟩
  · rw [slot_endReset]
    exact ⟨rfl, rfl, rfl, rfl, rfl, rfl, rfl, rfl, rfl, rfl, rfl, rfl, rfl, ⟨rfl, rfl, rfl, rfl⟩, rfl, rfl, rfl, rfl, rfl,
      rfl, rfl, rfl, rfl, rfl⟩
  · simp [endReset, State.reset, Policy.reset, PolicyEntry.reset]
  · simp [endReset, State.reset, KeySlot.empty]
  · simp [endReset, State.reset, ParamSet.empty]

/-! ### The machine after reset -/

theorem linkSound_endReset (rateHigh : Bool) (s : State) : (endReset rateHigh s).linkSound :=
  ⟨Nat.zero_le _, List.nodup_nil, trivial, trivial, fun h => (nomatch h), Nat.zero_le _, Nat.zero_le _, Nat.zero_le _,
    fun _ _ => ⟨rfl, rfl⟩⟩

theorem outstanding_endReset (rateHigh : Bool) (s : State) (i : SlotId) : (endReset rateHigh s).outstanding i = 0 := by
  rw [State.outstanding, slot_endReset]
  rfl

theorem jobsSound_endReset (rateHigh : Bool) (s : State) : (endReset rateHigh s).jobsSound := by
  intro _
  refine ⟨fun _ => ⟨rfl, rfl⟩, fun i => Nat.zero_le _, List.nodup_nil, fun j hj => absurd hj List.not_mem_nil,
    fun cur hcur => (nomatch hcur), fun i => ⟨fun _ => ?_, fun _ => outstanding_endReset rateHigh s i⟩⟩
  rw [outstanding_endReset]
  exact Nat.zero_le _

theorem ringSound_endReset (rateHigh : Bool) (s : State) : (endReset rateHigh s).recorder.sound := by
  show Recorder.reset.sound
  refine ⟨rfl, by decide, by decide, rfl, fun h => (nomatch h), fun h => (nomatch h), by decide, by decide,
    fun _ => ⟨rfl, rfl⟩, by decide, by decide, rfl, fun p hp => absurd hp List.not_mem_nil, by decide, by decide⟩

/-- The machine as it is built is the machine after a cold reset. -/
theorem reset_eq : State.reset = endReset false State.reset := by
  rw [endReset]
  simp [State.reset, Slot.wake, Slot.reset]

/-- Settles O3. -/
theorem resetStateIsSound : Obligations.ResetStateIsSound := by
  have hslot : ∀ i, State.reset.slot i = Slot.reset false false := by
    intro i
    simp [State.slot, State.reset]
  refine ⟨?link, ?lines, ?timers, ?contacts, ?queues, ?power, ?plan, ?sel, ?sets, ?allowance, ?jobs, ?cycle, ?ring⟩
  case link => rw [reset_eq]; exact linkSound_endReset _ _
  case lines =>
    rw [linesSound_live rfl]
    intro i
    rw [hslot]
    simp [Slot.linesFollow, Slot.reset, SlotState.standbyOn, SlotState.mainOn, SlotState.cardReset]
  case timers =>
    intro i
    rw [hslot]
    simp [Slot.timersFollow, Slot.reset, StateTimers.idle]
  case contacts =>
    intro _ i contact
    rw [hslot]
    cases contact <;> simp [Slot.debounceTimer, Slot.raw, Slot.debounced, Slot.reset]
  case queues => rw [reset_eq]; exact queuesSound_endReset _ _
  case power =>
    rw [reset_eq]
    exact (powerSound_iff _).2 ⟨powerAccounted_endReset _ _, fun _ _ h => nomatch h⟩
  case plan =>
    rw [reset_eq]
    exact (planSound_iff _).2 ⟨planAccounted_endReset _ _, fun _ hj => absurd hj List.not_mem_nil⟩
  case sel => exact selSound_of_idle List.nodup_nil rfl
  case sets => rw [reset_eq]; exact setsSound_endReset _ _
  case allowance =>
    intro i
    rw [hslot]
    simp [Slot.reset]
  case jobs => rw [reset_eq]; exact jobsSound_endReset _ _
  case cycle =>
    exact ⟨rfl, fun h => (nomatch h), fun h => (nomatch h), Nat.zero_le _, Nat.zero_le _, Nat.zero_le _⟩
  case ring => rw [reset_eq]; exact ringSound_endReset _ _

end Sys2Proof.Machine
end

section
/-!
PROOF. How the accounts of one slot's event (`Entered`, `Local`, `Identifies`, `JoinsPower`, `PoweredDown`) carry over to a
state that differs in what they do not speak of: a reply queued, a job issued, a field of the record written.
-/
namespace Sys2Proof.Machine

/-! ### Entered -/

/-- What `Entered` reads of a slot's record after the event. -/
def Slot.entryFields (c : Slot) :=
  ((c.state, c.reason, c.transitions, c.faultCount, c.traceRef), (c.stbyEn, c.mainEn, c.cardRst, c.standby), c.timers,
    (c.early, c.earlyRaw, c.debounceEarly), (c.late, c.lateRaw, c.debounceLate))

/-- What `Entered` reads of a slot's record before the event. -/
def Slot.startFields (c : Slot) :=
  ((c.state, c.transitions, c.traceRef), (c.early, c.earlyRaw, c.debounceEarly), (c.late, c.lateRaw, c.debounceLate))

theorem Entered.of_fields {i : SlotId} {st : SlotState} {r : Reason} {k : Nat} {s t u : State}
    (h : Entered i st r k s t) (hf : (u.slot i).entryFields = (t.slot i).entryFields)
    (hg : u.recorder.gateReports = t.recorder.gateReports) (hn : u.link.notices = t.link.notices) :
    Entered i st r k s u := by
  simp only [Slot.entryFields, Prod.mk.injEq] at hf
  obtain ⟨⟨hstate, hreason, htransitions, hfault, href⟩, ⟨hstby, hmain, hrst, hstandby⟩, htimers,
    ⟨hearly, hearlyRaw, hdebounceEarly⟩, hlate, hlateRaw, hdebounceLate⟩ := hf
  constructor
  · rw [hstate]; exact h.state
  · rw [hreason]; exact h.reason
  · unfold Slot.linesFollow
    rw [hstate, hstby, hmain, hrst, hstandby]
    exact h.lines
  · unfold Slot.timersFollow
    rw [hstate, htimers]
    exact h.timers
  · rw [htransitions]; exact h.transitions
  · unfold State.posted
    rw [hstate, hreason, htransitions, hfault, hn]
    exact h.posted
  · rw [hg]; exact h.gate
  · rw [hearly, hearlyRaw, hdebounceEarly]; exact h.early
  · rw [hlate, hlateRaw, hdebounceLate]; exact h.late
  · rw [href]; exact h.traceRef

theorem Entered.of_start {i : SlotId} {st : SlotState} {r : Reason} {k : Nat} {s s' t : State}
    (h : Entered i st r k s' t) (hf : (s'.slot i).startFields = (s.slot i).startFields)
    (hg : s'.recorder.gateReports = s.recorder.gateReports) : Entered i st r k s t := by
  simp only [Slot.startFields, Prod.mk.injEq] at hf
  obtain ⟨⟨hstate, htransitions, href⟩, ⟨hearly, hearlyRaw, hdebounceEarly⟩, hlate, hlateRaw, hdebounceLate⟩ := hf
  exact ⟨h.state, h.reason, h.lines, h.timers, htransitions ▸ h.transitions, h.posted, hg ▸ hstate ▸ h.gate,
    hearly ▸ hearlyRaw ▸ hdebounceEarly ▸ h.early, hlate ▸ hlateRaw ▸ hdebounceLate ▸ h.late, href ▸ h.traceRef⟩

theorem Entered.updSlot {i : SlotId} {st : SlotState} {r : Reason} {k : Nat} {s t : State} (h : Entered i st r k s t)
    {f : Slot → Slot} (hf : ∀ c, (f c).entryFields = c.entryFields) : Entered i st r k s (t.updSlot i f) :=
  h.of_fields (by rw [slot_updSlot_self, hf]) rfl rfl

theorem Entered.issued {i : SlotId} {st : SlotState} {r : Reason} {k : Nat} {s t : State} (h : Entered i st r k s t)
    (j : SlotId) (tr : Transaction) : Entered i st r k s (issueJob j tr t) :=
  h.of_fields (by rw [slot_issueJob]) (by rw [issueJob_recorder]) (by rw [issueJob_link])

theorem Entered.withReply {i : SlotId} {st : SlotState} {r : Reason} {k : Nat} {s t : State} (h : Entered i st r k s t)
    (kind tag : Byte) (a : Answer) : Entered i st r k s (queueReply kind tag a t) := h.of_fields rfl rfl rfl

/-! ### Local -/

theorem Local.refl (i : SlotId) (s : State) : Local i s s := ⟨rfl, rfl, rfl, rfl, fun _ _ => rfl⟩

theorem Local.trans {i : SlotId} {a b c : State} (h1 : Local i a b) (h2 : Local i b c) : Local i a c where
  rest := (congrArg (fun x : State => { x with slots := a.slots, recorder := a.recorder, link := a.link }) h2.rest).trans
    h1.rest
  recorder := Recorder.gate_trans h1.recorder h2.recorder
  link := Link.queues_trans h1.link h2.link
  notices := h2.notices.trans h1.notices
  slots j hj := (h2.slots j hj).trans (h1.slots j hj)

theorem local_updSlot (i : SlotId) (f : Slot → Slot) (s : State) : Local i s (s.updSlot i f) :=
  ⟨rfl, rfl, rfl, rfl, fun _ hj => slot_updSlot_ne s f hj⟩

theorem Local.engine {i : SlotId} {s t : State} (h : Local i s t) : t.engine = s.engine := by
  have hengine := congrArg State.engine h.rest
  exact hengine

theorem Local.withReply {i : SlotId} {s t : State} (h : Local i s t) (kind tag : Byte) (a : Answer) :
    Local i s (queueReply kind tag a t) := ⟨h.rest, h.recorder, h.link, h.notices, h.slots⟩

/-- A job issued by a local event leaves the event local but for the engine. -/
theorem Local.issued {i : SlotId} {s t : State} (h : Local i s t) (j : SlotId) (tr : Transaction) :
    Local i s { issueJob j tr t with engine := s.engine } := by
  have hissued := issueJob_local j tr t
  rw [h.engine] at hissued
  rw [hissued]
  exact h

/-! ### What a queued reply leaves as it was -/

theorem SlotFrame.withReply {i : SlotId} {s t : State} (h : SlotFrame i s t) (kind tag : Byte) (a : Answer) :
    SlotFrame i s (queueReply kind tag a t) :=
  ⟨h.pending, h.inReset, h.times, h.policy, h.keys, h.monitor, h.budget, h.rampLimit, h.settings, h.sets, h.sequencer,
    h.recorder, h.link, h.jobs, h.windows, h.active, h.run, h.powerQueue, h.roomQueue, h.slots⟩

theorem Keeps.withReply {i : SlotId} {s t : State} (h : Keeps i s t) (kind tag : Byte) (a : Answer) :
    Keeps i s (queueReply kind tag a t) := ⟨h.allowance, h.faultCount, h.screening⟩

theorem PoweredDown.withReply {i : SlotId} {s t : State} (h : PoweredDown i s t) (kind tag : Byte) (a : Answer) :
    PoweredDown i s (queueReply kind tag a t) :=
  ⟨h.grant, h.pin, h.threshold, h.planned, h.muted, h.sel, h.powerQueue, h.roomQueue, h.queued, h.deferred, h.aborted,
    h.reading, h.cut, h.uncut⟩

theorem JoinsPower.withReply {i : SlotId} {s t : State} (h : JoinsPower i s t) (kind tag : Byte) (a : Answer) :
    JoinsPower i s (queueReply kind tag a t) where
  frame := h.frame.withReply kind tag a
  keeps := h.keeps.withReply kind tag a
  refused hb := by
    obtain ⟨hentered, harbiter, hlocal⟩ := h.refused hb
    exact ⟨hentered.withReply kind tag a, harbiter, hlocal.withReply kind tag a⟩
  granted hq hc hr := by
    obtain ⟨hentered, hrest⟩ := h.granted hq hc hr
    exact ⟨hentered.withReply kind tag a, hrest⟩
  waits hb hbl hq := by
    obtain ⟨hentered, hrest⟩ := h.waits hb hbl hq
    exact ⟨hentered.withReply kind tag a, hrest⟩

theorem Identifies.withReply {i : SlotId} {r : Reason} {k : Nat} {s t : State} (h : Identifies i r k s t) (kind tag : Byte)
    (a : Answer) : Identifies i r k s (queueReply kind tag a t) :=
  ⟨h.frame.withReply kind tag a, ⟨h.near.rest, h.near.recorder, h.near.link, h.near.notices, h.near.slots⟩,
    h.entered.withReply kind tag a, h.screening, h.issued, h.queued, h.aborted⟩

/-! ### Another start -/

/-- An entry of IDENTIFYING measured from before a write to the slot's record. -/
theorem Identifies.of_updSlot {i : SlotId} {r : Reason} {k : Nat} {s t : State} {f : Slot → Slot}
    (h : Identifies i r k (s.updSlot i f) t) (hf : ∀ c, (f c).startFields = c.startFields) : Identifies i r k s t :=
  ⟨(slotFrame_updSlot i s f).trans h.frame, (local_updSlot i f s).trans h.near,
    h.entered.of_start (by rw [slot_updSlot_self, hf]) rfl, h.screening, h.issued, h.queued, h.aborted⟩

/-! ### The entries that start a job or a timer -/

theorem slot_toIdentifying (i : SlotId) (r : Reason) (s : State) : ∃ completions,
    (toIdentifying i r s).slot i = { (s.slot i).enter .identifying r with
      inbox := { (s.slot i).inbox with completions := completions } } := by
  obtain ⟨q, hq⟩ := withdrawJob_slot i (transition i .identifying r s)
  refine ⟨q, ?_⟩
  rw [toIdentifying, slot_issueJob, hq, slot_transition_self]
  rfl

theorem slot_toUnlocking (i : SlotId) (s : State) :
    (toUnlocking i s).slot i = { (s.slot i).enter .unlocking .none with walkPos := 0, offers := 0 } := by
  rw [toUnlocking, slot_issueJob, slot_updSlot_self, slot_transition_self]

theorem entered_toUnlocking (i : SlotId) (s : State) : Entered i .unlocking .none 1 s (toUnlocking i s) := by
  have hentered : Entered i .unlocking .none 1 s (transition i .unlocking .none s) := entered_transition rfl
  exact (hentered.updSlot (f := fun c => { c with walkPos := 0, offers := 0 }) fun _ => rfl).issued i _

theorem local_toUnlocking (i : SlotId) (s : State) : Local i s { toUnlocking i s with engine := s.engine } :=
  ((local_transition i _ _ s).trans (local_updSlot i _ _)).issued i _

theorem keeps_toUnlocking (i : SlotId) (s : State) : Keeps i s (toUnlocking i s) := by
  constructor <;> rw [slot_toUnlocking] <;> rfl

/-- CONSENT_WAIT is entered with its timer (03 R65). -/
theorem entered_toConsentWait (i : SlotId) (s : State) : Entered i .consentWait .none 1 s (toConsentWait i s) := by
  have h := entered_timed (i := i) (st := .consentWait) (r := .none) (s := s) (s' := s)
    (t := transition i .consentWait .none s) (T := { StateTimers.idle with consent := some s.times.consentTimeout })
    (fun c => by simp [Slot.timersFollow, Slot.enter, StateTimers.idle]) rfl rfl ⟨rfl, rfl, rfl⟩ ⟨rfl, rfl, rfl⟩ rfl rfl
    (Untouched.refl i _)
  rw [toConsentWait, updSlot_congr _ _ (g := fun c => { c with timers := { StateTimers.idle with
    consent := some s.times.consentTimeout } }) (by rw [slot_transition_self]; rfl)]
  exact h

theorem slot_toConsentWait (i : SlotId) (s : State) : (toConsentWait i s).slot i =
    { (s.slot i).enter .consentWait .none with
      timers := { StateTimers.idle with consent := some s.times.consentTimeout } } := by
  rw [toConsentWait, slot_updSlot_self, slot_transition_self]
  rfl

theorem local_toConsentWait (i : SlotId) (s : State) : Local i s (toConsentWait i s) :=
  (local_transition i _ _ s).trans (local_updSlot i _ _)

theorem keeps_toConsentWait (i : SlotId) (s : State) : Keeps i s (toConsentWait i s) := by
  constructor <;> rw [slot_toConsentWait] <;> rfl

end Sys2Proof.Machine
end

section
/-!
PROOF. The host's slot commands (01 R19 to R25, 03 R66, 04 R81): what is refused, park and disable, the returns, the
decision on consent; and the adoption report (08 R147).
-/
namespace Sys2Proof.Machine

/-! ### Commands refused (01 R19) -/

theorem exec_slotConsent (tag b d : Byte) (s : State) :
    exec (.slotConsent tag b d) s = whenLive (takeCommand 0x12 tag (answerSlotConsent b d)) s := rfl
theorem exec_slotPark (tag b : Byte) (s : State) :
    exec (.slotPark tag b) s = whenLive (takeCommand 0x13 tag (answerSlotPark b)) s := rfl
theorem exec_slotResume (tag b : Byte) (s : State) :
    exec (.slotResume tag b) s = whenLive (takeCommand 0x14 tag (answerSlotResume b)) s := rfl
theorem exec_slotRestart (tag b : Byte) (s : State) :
    exec (.slotRestart tag b) s = whenLive (takeCommand 0x15 tag (answerSlotRestart b)) s := rfl
theorem exec_slotDisable (tag b : Byte) (s : State) :
    exec (.slotDisable tag b) s = whenLive (takeCommand 0x16 tag (answerSlotDisable b)) s := rfl
theorem exec_slotEnable (tag b : Byte) (s : State) :
    exec (.slotEnable tag b) s = whenLive (takeCommand 0x17 tag (answerSlotEnable b)) s := rfl
theorem exec_slotClearBar (tag b : Byte) (s : State) :
    exec (.slotClearBar tag b) s = whenLive (takeCommand 0x18 tag (answerSlotClearBar b)) s := rfl

theorem parkable_iff (st : SlotState) : st.parkable = true ↔ st ∈ [.powerWait, .powering, .resetHold, .readyWait,
    .configuring, .roomWait, .joining, SlotState.running] := by
  cases st <;> decide

theorem decisionOf_unknown {d : Byte} (h : 1 < d.toNat) : decisionOf d = none := by
  have h0 : d ≠ 0 := byte_ne (by simpa using by omega)
  have h1 : d ≠ 1 := byte_ne (by simpa using by omega)
  rw [decisionOf, if_neg h0, if_neg h1]

theorem decisionOf_known {d : Byte} (h : d.toNat ≤ 1) : ∃ allowed, decisionOf d = some allowed := by
  rcases Nat.le_one_iff_eq_zero_or_eq_one.1 h with h | h
  · rw [byte_eq (c := 0) h]; exact ⟨true, rfl⟩
  · rw [byte_eq (c := 1) h]; exact ⟨false, rfl⟩

theorem answerSlotRestart_returns {i : SlotId} {s : State}
    (h : (s.slot i).state ∈ [.refused, .faulted, SlotState.parked]) : answerSlotRestart (slotByte i) s =
      (toIdentifying i .none (s.updSlot i fun c => { c with faultCount := 0 }), okAnswer []) := by
  rw [answerSlotRestart, onSlot_slotByte]
  simp only [List.mem_cons, List.not_mem_nil, or_false] at h
  rcases h with h | h | h <;> rw [h]

theorem answerSlotRestart_refused {i : SlotId} {s : State}
    (h : (s.slot i).state ∉ [.refused, .faulted, SlotState.parked]) :
    answerSlotRestart (slotByte i) s = refuseWith .wrongState s := by
  rw [answerSlotRestart, onSlot_slotByte]
  cases hst : (s.slot i).state <;> rw [hst] at h <;> first | rfl | exact absurd (by decide) h

/-- Settles O33. -/
theorem slotCommandsRefused : Obligations.SlotCommandsRefused := by
  intro s tag htakes
  refine ⟨fun b d hb => ?beyond, fun i => ?_⟩
  case beyond =>
    simp only [List.forall_mem_cons, List.not_mem_nil, false_implies, implies_true, and_true]
    refine ⟨?_, ?_, ?_, ?_, ?_, ?_, ?_, ?_, ?_⟩ <;> exact command_replied htakes (onSlot_beyond hb _ s)
  intro st
  refine ⟨fun d hd => ?_, fun d hd hst => ?_, fun hst => ?_, fun hst => ?_, fun hst => ?_, fun hst => ?_, fun hst => ?_,
    fun hst hfrozen => ?_⟩
  · exact command_replied htakes (by rw [answerSlotConsent, onSlot_slotByte, decisionOf_unknown hd]; rfl)
  · obtain ⟨allowed, hallowed⟩ := decisionOf_known hd
    refine command_replied htakes ?_
    rw [answerSlotConsent, onSlot_slotByte, hallowed]
    exact if_pos hst
  · have hpark : (s.slot i).state.parkable = false := Bool.eq_false_iff.2 fun h => hst ((parkable_iff _).1 h)
    exact command_replied htakes (by
      rw [answerSlotPark, onSlot_slotByte, hpark]
      exact if_neg (by rw [Bool.not_eq_true]; exact hpark))
  · exact command_replied htakes (by rw [answerSlotResume, onSlot_slotByte, if_neg hst]; rfl)
  · exact command_replied htakes (answerSlotRestart_refused hst)
  · exact command_replied htakes (by rw [answerSlotEnable, onSlot_slotByte, if_neg hst]; rfl)
  · exact command_replied htakes (by rw [answerSlotClearBar, onSlot_slotByte, if_pos hst]; rfl)
  · exact command_replied htakes (by
      rw [answerSlotClearBar, onSlot_slotByte, if_neg (Classical.not_not.2 hst), if_pos hfrozen]; rfl)

/-! ### Park and disable (01 R20, R23) -/

theorem overruns_powerOff {i : SlotId} {st : SlotState} (h : st.clearsOverruns = false) (r : Reason) (s : State) :
    ((powerOff i st r s).slot i).overruns = (s.slot i).overruns := by
  obtain ⟨q, hslot⟩ := powerDown_slot i s
  rw [slot_powerOff, hslot]
  simp [Slot.enter, h]

/-- Settles O30. -/
theorem parkAndDisablePowerDown : Obligations.ParkAndDisablePowerDown := by
  intro s tag i htakes parkable
  have hcaught : s.caughtUp i (catchUp i s) := (caughtUp_iff htakes.1).2 rfl
  refine ⟨fun hpark => ⟨catchUp i s, hcaught, catchUp_nothing, fun hstill => ?parked, fun hmoved => ?moved⟩,
    fun hst => ?disabled, fun hst => ?already⟩
  case parked =>
    have hact : answerSlotPark (slotByte i) s = (powerOff i .parked .hostPark (catchUp i s), okAnswer []) := by
      rw [answerSlotPark, onSlot_slotByte, (parkable_iff _).2 hpark]
      exact if_pos ((parkable_iff _).2 hstill)
    exact ⟨_, (exec_slotPark ..).trans (command_acts htakes hact), (entered_powerOff rfl).withReply _ _ _,
      (poweredDown_powerOff ..).withReply _ _ _, (slotFrame_powerOff ..).withReply _ _ _,
      (keeps_powerOff _ _ _ _ rfl).withReply _ _ _, overruns_powerOff rfl _ _, queueReply_answers (powerOff_replies ..)⟩
  case moved =>
    have hact : answerSlotPark (slotByte i) s = refuseWith .wrongState (catchUp i s) := by
      rw [answerSlotPark, onSlot_slotByte, (parkable_iff _).2 hpark]
      exact if_neg fun h => hmoved ((parkable_iff _).1 h)
    exact (exec_slotPark ..).trans (command_acts htakes hact)
  case disabled =>
    have hact : answerSlotDisable (slotByte i) s = (powerOff i .disabled .hostDisable (catchUp i s), okAnswer []) := by
      rw [answerSlotDisable, onSlot_slotByte, if_neg hst]
    obtain ⟨q, hslot⟩ := powerDown_slot i (catchUp i s)
    refine ⟨catchUp i s, _, hcaught, catchUp_nothing, (exec_slotDisable ..).trans (command_acts htakes hact),
      (entered_powerOff rfl).withReply _ _ _, (poweredDown_powerOff ..).withReply _ _ _,
      (slotFrame_powerOff ..).withReply _ _ _, ?_, ?_, ?_, overruns_powerOff rfl _ _,
      queueReply_answers (powerOff_replies ..)⟩
    · show ((powerOff i .disabled .hostDisable (catchUp i s)).slot i).screening = _
      rw [slot_powerOff]
      rfl
    · show ((powerOff i .disabled .hostDisable (catchUp i s)).slot i).allowance = _
      rw [slot_powerOff, hslot]
      rfl
    · show ((powerOff i .disabled .hostDisable (catchUp i s)).slot i).faultCount = _
      rw [slot_powerOff, hslot]
      rfl
  case already =>
    exact command_replied htakes (by rw [answerSlotDisable, onSlot_slotByte, if_pos hst]; rfl)

/-! ### The returns (01 R21, R22, R24, R25) -/

/-- What the entry of the state that the contacts call for makes of the record. -/
theorem slot_toContactState (i : SlotId) (s : State) : ∃ completions, (toContactState i s).slot i =
    { (s.slot i).enter (contactState (s.slot i)) .none with
      inbox := { (s.slot i).inbox with completions := completions } } := by
  unfold toContactState
  split
  · next h =>
    rw [h]
    exact slot_toIdentifying i .none s
  · exact ⟨(s.slot i).inbox.completions, slot_transition_self i _ _ s⟩

theorem state_toContactState (i : SlotId) (s : State) :
    ((toContactState i s).slot i).state = contactState (s.slot i) := by
  obtain ⟨q, hslot⟩ := slot_toContactState i s
  rw [hslot]
  rfl

/-- The states that the contacts call for, none of which runs a timer. -/
theorem contactState_calls (c : Slot) : contactState c =
    (if c.allowance = 0 then .barred else if c.early = false then .empty else if c.late = false then .mating
      else .identifying) := by
  unfold contactState
  cases c.early <;> cases c.late <;> rfl

theorem contactState_timed (c : Slot) : (contactState c).timed = false := by
  rw [contactState_calls]
  repeat' split
  all_goals rfl

/-- The state that the contacts call for is entered with the actions of IDENTIFYING where it is that, else as a transition
that reaches no other block. -/
theorem toContactState_returns (i : SlotId) (s : State) :
    (contactState (s.slot i) = .identifying → Identifies i .none 1 s (toContactState i s)) ∧
      (contactState (s.slot i) ≠ .identifying →
        Entered i (contactState (s.slot i)) .none 1 s (toContactState i s) ∧ Local i s (toContactState i s)) := by
  refine ⟨fun h => ?_, fun h => ?_⟩
  · rw [toContactState, if_pos h]
    exact identifies_toIdentifying i .none s
  · rw [toContactState, if_neg h]
    exact ⟨entered_transition (contactState_timed _), local_transition i _ _ s⟩

/-- Settles O31. -/
theorem slotsReturnOnCommand : Obligations.SlotsReturnOnCommand := by
  intro s tag i htakes called returns cleared
  have hcalled : ∀ c, contactState c = called c := contactState_calls
  have hreturns : ∀ (kind : Byte) (u : State) (f : Slot → Slot), (∀ c, (f c).startFields = c.startFields) →
      (∀ c, contactState (f c) = called c) →
      returns u (queueReply kind tag (okAnswer []) (toContactState i (u.updSlot i f))) := by
    intro kind u f hstart hcontacts
    have hstate : contactState ((u.updSlot i f).slot i) = called (u.slot i) := by rw [slot_updSlot_self, hcontacts]
    obtain ⟨hident, hother⟩ := toContactState_returns i (u.updSlot i f)
    rw [hstate] at hident hother
    refine ⟨fun h => ((hident h).of_updSlot hstart).withReply _ _ _, fun h => ?_⟩
    obtain ⟨hentered, hlocal⟩ := hother h
    exact ⟨(hentered.of_start (s := u) (by rw [slot_updSlot_self, hstart]) rfl).withReply _ _ _,
      ((local_updSlot i f u).trans hlocal).withReply _ _ _⟩
  refine ⟨fun hst => ?resume, fun hst => ?restart, fun hst => ?enable, fun hst hopen => ?clearBar⟩
  case resume =>
    have hact : answerSlotResume (slotByte i) s = (toPowerWait i s, okAnswer []) := by
      rw [answerSlotResume, onSlot_slotByte, if_pos hst]
    exact ⟨_, (exec_slotResume ..).trans (command_acts htakes hact),
      (joinsPower_toPowerWait (by rw [hst]; rfl)).withReply _ _ _, queueReply_answers (toPowerWait_replies ..)⟩
  case restart =>
    have hident := (identifies_toIdentifying i .none (s.updSlot i fun c => { c with faultCount := 0 })).of_updSlot
      fun _ => rfl
    obtain ⟨q, hslot⟩ := slot_toIdentifying i .none (s.updSlot i fun c => { c with faultCount := 0 })
    rw [slot_updSlot_self] at hslot
    exact ⟨_, (exec_slotRestart ..).trans (command_acts htakes (answerSlotRestart_returns hst)),
      hident.withReply _ _ _, (congrArg Slot.faultCount hslot :), (congrArg Slot.allowance hslot :),
      queueReply_answers (toIdentifying_replies ..)⟩
  case enable =>
    have hact : answerSlotEnable (slotByte i) s =
        (toContactState i (s.updSlot i fun c => { c with faultCount := 0 }), okAnswer []) := by
      rw [answerSlotEnable, onSlot_slotByte, if_pos hst]
    obtain ⟨q, hslot⟩ := slot_toContactState i (s.updSlot i fun c => { c with faultCount := 0 })
    rw [slot_updSlot_self] at hslot
    exact ⟨_, (exec_slotEnable ..).trans (command_acts htakes hact),
      hreturns 0x17 s (fun c => { c with faultCount := 0 }) (fun _ => rfl) fun c => hcalled c,
      (congrArg Slot.faultCount hslot :), (congrArg Slot.allowance hslot :), queueReply_answers (toContactState_replies ..)⟩
  case clearBar =>
    have hact : answerSlotClearBar (slotByte i) s = (toContactState i
        (s.updSlot i fun c => { c with allowance := 3, screening := Screening.absent }), okAnswer []) := by
      rw [answerSlotClearBar, onSlot_slotByte, if_neg (Classical.not_not.2 hst), if_neg (by simp [hopen])]
    have hsame : s.updSlot i (fun c => { c with allowance := 3, screening := Screening.absent }) =
        cleared.updSlot i fun c => { c with screening := Screening.absent } := by
      simp [cleared, updSlot_eq]
    have hreturned := hreturns 0x18 cleared (fun c => { c with screening := Screening.absent }) (fun _ => rfl)
      fun c => hcalled c
    rw [← hsame] at hreturned
    obtain ⟨q, hslot⟩ := slot_toContactState i
      (s.updSlot i fun c => { c with allowance := 3, screening := Screening.absent })
    rw [slot_updSlot_self] at hslot
    refine ⟨_, (exec_slotClearBar ..).trans (command_acts htakes hact), hreturned, (congrArg Slot.allowance hslot :),
      ((congrArg Slot.screening hslot).trans (ite_self _) :), (congrArg Slot.faultCount hslot :),
      ?_, queueReply_answers (toContactState_replies ..)⟩
    have hstate := state_toContactState i
      (s.updSlot i fun c => { c with allowance := 3, screening := Screening.absent })
    rw [slot_updSlot_self, contactState_calls] at hstate
    show ((toContactState i _).slot i).state ∈ _
    rw [hstate]
    cases (s.slot i).early <;> cases (s.slot i).late <;> simp

/-! ### Consent (03 R66) -/

theorem demandsKey_iff (c : Slot) : c.demandsKey = true ↔
    ∃ r, c.screening.identity = some r ∧ ∃ k < 4, (r.getD 10 0).getLsbD k = true := by
  unfold Slot.demandsKey
  cases c.screening.identity with
  | none => simp
  | some r =>
    simp only [Option.map_some, Option.getD_some, identLocked, List.any_eq_true]
    refine ⟨fun ⟨k, hk, hbit⟩ => ⟨r, rfl, k, ?_, hbit⟩, fun ⟨_, rfl, k, hk, hbit⟩ => ⟨k, ?_, hbit⟩⟩
    · simp only [List.mem_cons, List.not_mem_nil, or_false] at hk
      omega
    · simp only [List.mem_cons, List.not_mem_nil, or_false]
      omega

/-- Settles O32. -/
theorem consentDecides : Obligations.ConsentDecides := by
  intro s tag i htakes hst keyed
  have hact : ∀ d allowed, decisionOf d = some allowed → answerSlotConsent (slotByte i) d s =
      if allowed then (admitCard i s, okAnswer []) else (transition i .refused .hostRefused s, okAnswer []) := by
    intro d allowed hd
    rw [answerSlotConsent, onSlot_slotByte, hd]
    exact if_neg (Classical.not_not.2 hst)
  have hadmit := hact 0x00 true rfl
  refine ⟨fun hkeyed => ?unlock, fun hfree => ?power, ?refuse⟩
  case unlock =>
    rw [if_pos rfl, admitCard, if_pos ((demandsKey_iff _).2 hkeyed)] at hadmit
    have hslot := slot_toUnlocking i s
    refine ⟨_, (exec_slotConsent ..).trans (command_acts htakes hadmit), (entered_toUnlocking i s).withReply _ _ _,
      ?_, ?_, (keeps_toUnlocking i s).withReply _ _ _, (slotFrame_toUnlocking i s).withReply _ _ _,
      mem_issueJob_jobs i _ _, ?_, queueReply_answers (toUnlocking_replies ..)⟩
    · show ((toUnlocking i s).slot i).walkPos = 0
      rw [hslot]
    · show ((toUnlocking i s).slot i).offers = 0
      rw [hslot]
    · exact (local_toUnlocking i s).withReply _ _ _
  case power =>
    rw [if_pos rfl, admitCard, if_neg fun h => hfree ((demandsKey_iff _).1 h)] at hadmit
    exact ⟨_, (exec_slotConsent ..).trans (command_acts htakes hadmit),
      (joinsPower_toPowerWait (by rw [hst]; rfl)).withReply _ _ _, queueReply_answers (toPowerWait_replies ..)⟩
  case refuse =>
    have hrefuse := hact 0x01 false rfl
    exact ⟨_, (exec_slotConsent ..).trans (command_acts htakes hrefuse), (entered_transition rfl).withReply _ _ _,
      (local_transition ..).withReply _ _ _, (keeps_transition _ _ _ _ rfl).withReply _ _ _,
      queueReply_answers (transition_replies ..)⟩

/-! ### The adoption report (08 R147) -/

theorem takeAdoption_some {i : SlotId} {s : State} {k : Nat} (h : (s.slot i).inbox.adoptionReports = k + 1) :
    takeAdoption i s =
      let taken := s.updSlot i fun x => { x with inbox := { x.inbox with adoptionReports := k } }
      if (s.slot i).state = .joining then transmit (transition i .running .none taken) else taken := by
  unfold takeAdoption
  rw [if_neg (by omega), updSlot_congr s _ (g := fun x => { x with inbox := { x.inbox with adoptionReports := k } })
    (by rw [h]; rfl)]

/-- Settles O49. -/
theorem adoptionReportEntersRunning : Obligations.AdoptionReportEntersRunning := by
  intro s i k hlive hreports c
  have hexec : exec (.adoptionReportTaken i) s = .next (takeAdoption i s) := whenLive_live hlive
  rw [hexec, takeAdoption_some hreports]
  refine ⟨fun hst => ?_, fun hst => ?_⟩
  · have hentered := (entered_transition (i := i) (st := .running) (r := .none)
      (s := s.updSlot i fun x => { x with inbox := { x.inbox with adoptionReports := k } }) rfl).of_start (s := s)
      (by rw [slot_updSlot_self]; rfl) rfl
    refine ⟨_, by rw [if_pos hst], hentered, (local_updSlot ..).trans (local_transition ..), ?_, ?_, ?_,
      transition_replies ..⟩
    · constructor <;> rw [slot_transition_self, slot_updSlot_self] <;> rfl
    · rw [slot_transition_self]; rfl
    · rw [slot_transition_self, slot_updSlot_self]; rfl
  · rw [if_neg hst]
    rfl

end Sys2Proof.Machine
end

section
/-!
PROOF. The state timers' expiries (01 R15 to R17, R27, 03 R67, 05 R98, R101 to R104) and the window outcomes (08 R154,
R156).
-/
namespace Sys2Proof.Machine

/-! ### Faults measured from another start -/

/-- What `PoweredDown` reads of a slot's record before the event. -/
def Slot.cutFields (c : Slot) := (c.pin, c.transferCount, c.wordsWritten, c.residual)

/-- What `Faults` reads of a slot's record before the event. -/
def Slot.faultFields (c : Slot) := (c.startFields, c.cutFields, c.faultCount, c.allowance, c.screening)

theorem PoweredDown.of_updSlot {i : SlotId} {s t : State} {f : Slot → Slot} (h : PoweredDown i (s.updSlot i f) t)
    (hf : (f (s.slot i)).cutFields = (s.slot i).cutFields) : PoweredDown i s t := by
  simp only [Slot.cutFields, Prod.mk.injEq] at hf
  obtain ⟨hpin, hcount, hwritten, hresidual⟩ := hf
  refine ⟨h.grant, h.pin, h.threshold, h.planned, h.muted, h.sel, h.powerQueue, h.roomQueue, h.queued, h.deferred,
    h.aborted, h.reading, fun n hn => ?_, fun hn => ?_⟩
  · have hcut := h.cut n (by rw [slot_updSlot_self, hpin]; exact hn)
    rw [slot_updSlot_self, hcount] at hcut
    exact hcut
  · have huncut := h.uncut (by rw [slot_updSlot_self, hpin]; exact hn)
    rw [slot_updSlot_self, hwritten, hresidual] at huncut
    exact huncut

theorem Faults.of_updSlot {i : SlotId} {code : Reason} {k : Nat} {s t : State} {f : Slot → Slot}
    (h : Faults i code k (s.updSlot i f) t) (hf : (f (s.slot i)).faultFields = (s.slot i).faultFields) :
    Faults i code k s t := by
  have hfields := hf
  simp only [Slot.faultFields, Prod.mk.injEq] at hfields
  obtain ⟨hstart, hcut, hfault, hallowance, hscreening⟩ := hfields
  refine ⟨(slotFrame_updSlot i s f).trans h.frame, h.poweredDown.of_updSlot hcut, ?_, ?_, ?_, fun hr hc => ?_, fun hr => ?_⟩
  · rw [h.faultCount, slot_updSlot_self, hfault]
  · rw [h.allowance, slot_updSlot_self, hallowance]
  · rw [h.screening, slot_updSlot_self, hscreening]
  · obtain ⟨hentered, htimer⟩ := h.retried hr hc
    exact ⟨hentered.of_start (by rw [slot_updSlot_self, hstart]) rfl, htimer⟩
  · exact (h.rested hr).of_start (by rw [slot_updSlot_self, hstart]) rfl

/-- A fault leaves the overrun count as it is: neither COOLDOWN nor FAULTED clears it (01 R2). -/
theorem overruns_takeFault (i : SlotId) (code : Reason) (s : State) :
    ((takeFault i code s).slot i).overruns = (s.slot i).overruns := by
  unfold takeFault
  dsimp only
  split
  · rw [slot_updSlot_self]
    exact (overruns_powerOff rfl code _).trans (by rw [slot_updSlot_self])
  · rw [overruns_powerOff rfl, slot_updSlot_self]

/-! ### READY_WAIT (05 R101, R102) -/

/-- The timers that READY_WAIT starts. -/
def readyTimers (s : State) : StateTimers :=
  { StateTimers.idle with ready := some s.times.readyTimeout, poll := some Config.pollInterval }

theorem toReadyWait_eq (i : SlotId) (s : State) : toReadyWait i s =
    issueJob i .statusRead ((transition i .readyWait .none s).updSlot i fun c => { c with timers := readyTimers s }) := by
  rw [toReadyWait, pollStatus, updSlot_updSlot]
  refine congrArg _ (updSlot_congr _ _ ?_)
  rw [slot_transition_self]
  rfl

theorem slot_toReadyWait (i : SlotId) (s : State) :
    (toReadyWait i s).slot i = { (s.slot i).enter .readyWait .none with timers := readyTimers s } := by
  rw [toReadyWait_eq, slot_issueJob, slot_updSlot_self, slot_transition_self]

theorem entered_toReadyWait (i : SlotId) (s : State) : Entered i .readyWait .none 1 s (toReadyWait i s) := by
  rw [toReadyWait_eq]
  exact (entered_timed (fun c => by simp [Slot.timersFollow, Slot.enter, readyTimers, StateTimers.idle]) rfl rfl
    ⟨rfl, rfl, rfl⟩ ⟨rfl, rfl, rfl⟩ rfl rfl (Untouched.refl i _)).issued i _

theorem slotFrame_toReadyWait (i : SlotId) (s : State) : SlotFrame i s (toReadyWait i s) := by
  rw [toReadyWait_eq]
  exact (slotFrame_transition i _ _ s).trans ((slotFrame_updSlot i _ _).trans (slotFrame_issueJob i _ _))

theorem local_toReadyWait (i : SlotId) (s : State) : Local i s { toReadyWait i s with engine := s.engine } := by
  rw [toReadyWait_eq]
  exact ((local_transition i _ _ s).trans (local_updSlot i _ _)).issued i _

theorem toReadyWait_replies (i : SlotId) (s : State) : (toReadyWait i s).link.replies = s.link.replies := by
  rw [toReadyWait_eq, issueJob_link, updSlot_link, transition_replies]

/-! ### The expiries -/

theorem expireCooldown_runs {i : SlotId} {s : State} (hst : (s.slot i).state = .cooldown)
    (ht : (s.slot i).timers.cooldown.isSome) : expireCooldown i s =
      transmit (if (s.slot i).reason = .setupBus then toIdentifying i .none s else toPowerWait i s) := if_pos ⟨hst, ht⟩

theorem expirePoll_busy {i : SlotId} {s : State} (hst : (s.slot i).state = .readyWait)
    (ht : (s.slot i).timers.poll.isSome) (hjob : s.engine.hasJob i = true) : expirePoll i s =
      s.updSlot i fun c => { c with pollDue := true, timers := { c.timers with poll := none } } := by
  rw [expirePoll, if_pos ⟨hst, ht⟩, if_pos hjob]

theorem expirePoll_free {i : SlotId} {s : State} (hst : (s.slot i).state = .readyWait)
    (ht : (s.slot i).timers.poll.isSome) (hjob : s.engine.hasJob i = false) : expirePoll i s = pollStatus i s := by
  rw [expirePoll, if_pos ⟨hst, ht⟩, if_neg (by simp [hjob])]

/-- Settles O41. -/
theorem timerExpiriesActByState : Obligations.TimerExpiriesActByState := by
  intro s i hlive c read
  have hcooldown : exec (.cooldownExpiry i) s = .next (expireCooldown i s) := whenLive_live hlive
  have hconsent : exec (.consentTimeout i) s = .next (expireConsent i s) := whenLive_live hlive
  have hramp : exec (.rampTimerExpiry i) s = .next (expireRamp i s) := whenLive_live hlive
  have hready : exec (.readyTimeout i) s = .next (expireReady i s) := whenLive_live hlive
  have hhold : exec (.resetHoldExpiry i) s = .next (expireResetHold i s) := whenLive_live hlive
  have hpoll : exec (.pollIntervalExpiry i) s = .next (expirePoll i s) := whenLive_live hlive
  rw [hcooldown, hconsent, hramp, hready, hhold, hpoll]
  refine ⟨fun hst ht => ?cooldown, fun hst ht => ?consent, fun hst ht => ?ramp, fun hst ht => ?ready,
    fun hst ht => ?hold, fun hst ht hjob => ?busy, fun hst ht hjob => ?free, fun h => ?_, fun h => ?_, fun h => ?_,
    fun h => ?_, fun h => ?_, fun h => ?_⟩
  case cooldown =>
    rw [expireCooldown_runs hst ht]
    by_cases hreason : (s.slot i).reason = .setupBus
    · obtain ⟨q, hslot⟩ := slot_toIdentifying i .none s
      rw [if_pos hreason]
      exact ⟨_, rfl, toIdentifying_replies .., (congrArg Slot.faultCount hslot :), (congrArg Slot.allowance hslot :),
        fun _ => identifies_toIdentifying i .none s, fun h => absurd hreason h⟩
    · have hjoins : JoinsPower i s (toPowerWait i s) := joinsPower_toPowerWait (by rw [hst]; rfl)
      rw [if_neg hreason]
      exact ⟨_, rfl, toPowerWait_replies .., hjoins.keeps.faultCount, hjoins.keeps.allowance, fun h => absurd h hreason,
        fun _ => hjoins⟩
  case consent =>
    exact ⟨_, congrArg _ (if_pos ⟨hst, ht⟩), entered_transition rfl, local_transition .., keeps_transition _ _ _ _ rfl,
      transition_replies ..⟩
  case ramp => exact ⟨_, congrArg _ (if_pos ⟨hst, ht⟩), faults_takeFault .., takeFault_replies ..⟩
  case ready => exact ⟨_, congrArg _ (if_pos ⟨hst, ht⟩), faults_takeFault .., takeFault_replies ..⟩
  case hold =>
    have hslot := slot_toReadyWait i s
    refine ⟨_, congrArg _ (if_pos ⟨hst, ht⟩), entered_toReadyWait i s, slotFrame_toReadyWait i s, local_toReadyWait i s,
      ?_, ?_, ?_, ?_, ?_, ?_, toReadyWait_replies i s⟩
    · constructor <;> rw [hslot] <;> rfl
    · rw [hslot]; rfl
    · rw [hslot]; rfl
    · rw [hslot]; rfl
    · rw [hslot]; rfl
    · rw [toReadyWait_eq]; exact mem_issueJob_jobs i _ _
  case busy => rw [expirePoll_busy hst ht hjob]; rfl
  case free =>
    rw [expirePoll_free hst ht hjob]
    exact ⟨_, rfl, mem_issueJob_jobs i _ _, slotFrame_pollStatus i s, issueJob_local i .statusRead (s.updSlot i _)⟩
  all_goals exact congrArg _ (if_neg h)

/-! ### Window outcomes (08 R154, R156) -/

theorem takeNextOutcome_taken {i : SlotId} {s : State} {o : WindowOutcome} {rest : List WindowOutcome}
    (h : (s.slot i).inbox.outcomes = o :: rest) : takeNextOutcome i s =
      let taken := s.updSlot i fun x => { x with inbox := { x.inbox with outcomes := rest } }
      if (s.slot i).state = .running then actOnOutcome i o taken else taken := by
  unfold takeNextOutcome
  rw [h]

theorem reachGap_run {s : State} {r : WindowRun} (h : s.sequencer.run = some r) :
    ∃ t, reachGap s = t ∧ t.sequencer = { s.sequencer with run := none } ∧
      t.slots = s.slots.set r.slot { s.slot r.slot with inbox := { (s.slot r.slot).inbox with
          outcomes := (s.slot r.slot).inbox.outcomes ++ [if r.overrun then .overrun else .clean] } } ∧
      { t with slots := s.slots, sequencer := s.sequencer } = s := by
  refine ⟨_, rfl, ?_, ?_, ?_⟩ <;> unfold reachGap <;> rw [h] <;> rfl

/-- Settles O50. -/
theorem windowOutcomesCounted : Obligations.WindowOutcomesCounted := by
  intro s i hlive
  have hexec : exec (.windowOutcomeTaken i) s = .next (takeNextOutcome i s) := whenLive_live hlive
  refine ⟨fun o rest houtcomes => ?outcome, fun r hrun => ?gap⟩
  case outcome =>
    intro c run
    rw [hexec, takeNextOutcome_taken houtcomes]
    refine ⟨fun hst ho => ?_, fun hst ho hfew => ?_, fun hst ho hmany => ?_, fun hst => by rw [if_neg hst]; rfl⟩ <;>
      (rw [if_pos hst, ho])
    · simp only [actOnOutcome, updSlot_updSlot]
      rfl
    · have hno : ¬ 3 ≤ (s.slot i).overruns + 1 := fun h => absurd (Nat.le_of_succ_le_succ h) (Nat.not_le.2 hfew)
      simp only [actOnOutcome, updSlot_updSlot, slot_updSlot_self, if_neg hno]
      rfl
    · have hthree : 3 ≤ (s.slot i).overruns + 1 := Nat.succ_le_succ hmany
      simp only [actOnOutcome, updSlot_updSlot, slot_updSlot_self, if_pos hthree]
      exact ⟨_, rfl, (faults_takeFault ..).of_updSlot rfl, by rw [overruns_takeFault, slot_updSlot_self],
        takeFault_replies ..⟩
  case gap =>
    have hgap : exec .windowGapStart s = .next (reachGap s) := whenLive_live hlive
    obtain ⟨t, ht, hsequencer, hslots, hrest⟩ := reachGap_run hrun
    rw [hgap, ht]
    exact ⟨t, rfl, by simp [State.sel, hsequencer], by simp [State.strobe, hsequencer],
      by simp [State.dirIn, hsequencer], hslots, hrest, hsequencer⟩

end Sys2Proof.Machine
end

section
/-!
PROOF. What the events of the slots do to the service link port: they post notices, one for each source, and start the
transmitter; the reply queue, the receiver and the counts stand (10 R190 to R192).
-/
namespace Sys2Proof.Machine

/-- The port stands but for its notices and the frame on the line; no source gets a second notice, and a reply on the line
is still the oldest queued. -/
structure Quiet (s t : State) : Prop where
  link : { t.link with notices := s.link.notices, tx := s.link.tx } = s.link
  nodup : (s.link.notices.map Notice.source).Nodup → (t.link.notices.map Notice.source).Nodup
  oldest : s.link.sendsOldest → t.link.sendsOldest

theorem Quiet.of_link {s t : State} (h : t.link = s.link) : Quiet s t :=
  ⟨by rw [h], by rw [h]; exact id, by rw [h]; exact id⟩

theorem Quiet.refl (s : State) : Quiet s s := .of_link rfl

theorem Quiet.trans {a b c : State} (h1 : Quiet a b) (h2 : Quiet b c) : Quiet a c where
  link := (congrArg (fun l : Link => { l with notices := a.link.notices, tx := a.link.tx }) h2.link).trans h1.link
  nodup h := h2.nodup (h1.nodup h)
  oldest h := h2.oldest (h1.oldest h)

theorem Quiet.from_link {s u t : State} (h : Quiet u t) (hl : u.link = s.link) : Quiet s t := (Quiet.of_link hl).trans h

theorem Quiet.to_link {s t u : State} (h : Quiet s t) (hl : u.link = t.link) : Quiet s u := h.trans (.of_link hl)

/-- What the accounts of single events read of it. -/
theorem Quiet.replies {s t : State} (h : Quiet s t) : t.link.replies = s.link.replies := by
  have hreplies := congrArg Link.replies h.link
  exact hreplies

/-! ### Notices and the transmitter -/

theorem quiet_postNotice (n : Notice) (s : State) : Quiet s (postNotice n s) :=
  ⟨rfl, nodup_placeNotice, id⟩

theorem quiet_postRecorder (cause : RecCause) (s : State) : Quiet s (postRecorder cause s) := quiet_postNotice _ s
theorem quiet_postCycle (cause : CycleCause) (s : State) : Quiet s (postCycle cause s) := quiet_postNotice _ s

theorem quiet_updSlot (i : SlotId) (f : Slot → Slot) (s : State) : Quiet s (s.updSlot i f) := .of_link rfl

theorem quiet_transition (i : SlotId) (st : SlotState) (r : Reason) (s : State) : Quiet s (transition i st r s) := by
  unfold transition postSlot
  exact (quiet_postNotice _ _).from_link (reportGate_link ..)

theorem quiet_writeReason (i : SlotId) (r : Reason) (s : State) : Quiet s (writeReason i r s) :=
  (quiet_postNotice _ _).from_link rfl

theorem quiet_transmit (s : State) : Quiet s (transmit s) := by
  unfold transmit
  split
  · exact Quiet.refl s
  · next r rest hreplies =>
    exact ⟨rfl, id, fun _ => by simp [Link.sendsOldest, hreplies]⟩
  · next n rest htx hreplies hnotices =>
    rw [noticeTaken_eq]
    refine ⟨rfl, fun h => ?_, fun _ => trivial⟩
    rw [hnotices] at h
    exact (List.nodup_cons.1 h).2
  · exact Quiet.refl s

/-! ### The arbiter and the planner -/

theorem quiet_grantPower (e : PowerEntry) (rest : List PowerEntry) (s : State) : Quiet s (grantPower e rest s) := by
  unfold grantPower
  dsimp only
  refine Quiet.trans ?_ (quiet_updSlot ..)
  exact (quiet_transition e.slot .powering .none _).from_link rfl

theorem quiet_examineFrom (q : List PowerEntry) : ∀ s : State, Quiet s (examineFrom q s) := by
  induction q with
  | nil => exact fun s => Quiet.refl s
  | cons e q ih =>
    intro s
    unfold examineFrom
    split
    · exact (quiet_grantPower e q s).trans (ih _)
    · exact Quiet.refl s

theorem quiet_examine (s : State) : Quiet s (examine s) := quiet_examineFrom _ s

theorem quiet_joinPlan (i : SlotId) (plan : List PlanWindow) (s : State) : Quiet s (joinPlan i plan s) := by
  unfold joinPlan
  exact (quiet_transition i .joining .none _).from_link rfl

theorem quiet_walkFrom (q : List SlotId) : ∀ s : State, Quiet s (walkFrom q s) := by
  induction q with
  | nil => exact fun s => Quiet.refl s
  | cons i q ih =>
    intro s
    unfold walkFrom
    split
    · exact (Quiet.of_link (leaveRoom_link i s)).trans ((quiet_joinPlan ..).trans (ih _))
    · exact ih s

theorem quiet_walkRoom (s : State) : Quiet s (walkRoom s) := quiet_walkFrom _ s

theorem quiet_insertWindow (i : SlotId) (s : State) : Quiet s (insertWindow i s) := by
  unfold insertWindow
  split
  · exact quiet_joinPlan ..
  · exact (quiet_transition i .roomWait .noRoom _).from_link rfl

theorem quiet_toPowerWait (i : SlotId) (s : State) : Quiet s (toPowerWait i s) := by
  unfold toPowerWait
  dsimp only
  split
  · exact quiet_transition ..
  · exact (quiet_transition i .powerWait .none s).trans ((quiet_examine _).from_link rfl)

/-! ### Power-down -/

theorem quiet_followOn (i : SlotId) (before s : State) : Quiet s (followOn i before s) := by
  have hwalked : Quiet s (if before.planner.plans i then walkRoom s else s) := by
    split
    · exact quiet_walkRoom s
    · exact Quiet.refl s
  unfold followOn
  dsimp only
  split
  · exact hwalked.trans (quiet_examine _)
  · exact hwalked

theorem quiet_powerDown (i : SlotId) (s : State) : Quiet s (powerDown i s) := .of_link (powerDown_link i s)

theorem quiet_powerOff (i : SlotId) (st : SlotState) (r : Reason) (s : State) : Quiet s (powerOff i st r s) :=
  (quiet_powerDown i s).trans ((quiet_transition ..).trans (quiet_followOn ..))

theorem quiet_takeFault (i : SlotId) (code : Reason) (s : State) : Quiet s (takeFault i code s) := by
  unfold takeFault
  dsimp only
  split
  · exact (quiet_updSlot i _ s).trans ((quiet_powerOff ..).trans (quiet_updSlot ..))
  · exact (quiet_updSlot i _ s).trans (quiet_powerOff ..)

theorem quiet_removeCard (i : SlotId) (s : State) : Quiet s (removeCard i s) :=
  (quiet_updSlot i _ s).trans (quiet_powerOff ..)

/-! ### Entries -/

theorem quiet_issueJob (i : SlotId) (t : Transaction) (s : State) : Quiet s (issueJob i t s) :=
  .of_link (issueJob_link i t s)

theorem quiet_withdrawJob (i : SlotId) (s : State) : Quiet s (withdrawJob i s) := .of_link (withdrawJob_link i s)

theorem quiet_toIdentifying (i : SlotId) (r : Reason) (s : State) : Quiet s (toIdentifying i r s) :=
  (quiet_transition ..).trans ((quiet_withdrawJob ..).trans (quiet_issueJob ..))

theorem quiet_toContactState (i : SlotId) (s : State) : Quiet s (toContactState i s) := by
  unfold toContactState
  split
  · exact quiet_toIdentifying ..
  · exact quiet_transition ..

theorem quiet_toConsentWait (i : SlotId) (s : State) : Quiet s (toConsentWait i s) :=
  (quiet_transition ..).trans (quiet_updSlot ..)

theorem quiet_toUnlocking (i : SlotId) (s : State) : Quiet s (toUnlocking i s) :=
  (quiet_transition ..).trans ((quiet_updSlot ..).trans (quiet_issueJob ..))

theorem quiet_admitCard (i : SlotId) (s : State) : Quiet s (admitCard i s) := by
  unfold admitCard
  split
  · exact quiet_toUnlocking ..
  · exact quiet_toPowerWait ..

theorem quiet_pollStatus (i : SlotId) (s : State) : Quiet s (pollStatus i s) := .of_link (pollStatus_link i s)

theorem quiet_toReadyWait (i : SlotId) (s : State) : Quiet s (toReadyWait i s) :=
  (quiet_transition ..).trans ((quiet_updSlot ..).trans (quiet_pollStatus ..))

theorem quiet_nextBlock (i : SlotId) (n : Fin 8) (s : State) : Quiet s (nextBlock i n s) := .of_link (nextBlock_link i n s)

theorem quiet_startTransfer (i : SlotId) (n : Fin 8) (s : State) : Quiet s (startTransfer i n s) := by
  have hpinned : Quiet s { s.updSlot i (fun c => { c with pin := some n, transferCount := 0 }) with
      sets := s.sets.set n { s.sets[n] with pins := s.sets[n].pins + 1 } } := .of_link rfl
  unfold startTransfer
  dsimp only
  refine Quiet.trans ?_ (quiet_nextBlock ..)
  split
  · exact hpinned.trans (quiet_writeReason ..)
  · exact hpinned

theorem quiet_examineSet (i : SlotId) (n : Fin 8) (s : State) : Quiet s (examineSet i n s) := by
  unfold examineSet
  split
  · split
    · exact quiet_takeFault ..
    · exact quiet_startTransfer ..
  · split
    · exact Quiet.refl s
    · exact quiet_writeReason ..

/-! ### Completions (02 R47) -/

theorem quiet_refuseCard (i : SlotId) (reason : Reason) (r : Screening) (s : State) :
    Quiet s (refuseCard i reason r s) := (quiet_updSlot ..).trans (quiet_transition ..)

theorem quiet_screenTiming (i : SlotId) (ident : List Byte) (action : PolicyAction) (r : Screening) (s : State) :
    Quiet s (screenTiming i ident action r s) := by
  unfold screenTiming
  split
  · exact quiet_refuseCard ..
  · dsimp only
    split
    · exact quiet_refuseCard ..
    · split
      · exact quiet_refuseCard ..
      · split
        · exact (quiet_updSlot ..).trans (quiet_toConsentWait ..)
        · exact (quiet_updSlot ..).trans (quiet_admitCard ..)

theorem quiet_screenCard (i : SlotId) (ident : List Byte) (s : State) : Quiet s (screenCard i ident s) := by
  unfold screenCard
  split
  · exact quiet_refuseCard ..
  · exact quiet_screenTiming ..

theorem quiet_takeInIdentifying (i : SlotId) (c : Completion) (s : State) : Quiet s (takeInIdentifying i c s) := by
  unfold takeInIdentifying
  split
  · split
    · unfold takeHeader
      split
      · exact (quiet_updSlot ..).trans (quiet_issueJob ..)
      · exact quiet_transition ..
    · unfold takeBody
      dsimp only
      split
      · exact quiet_screenCard ..
      · exact quiet_transition ..
  · exact quiet_takeFault ..
  · exact quiet_takeFault ..
  · exact Quiet.refl s

theorem quiet_walkKeys (i : SlotId) (s : State) : Quiet s (walkKeys i s) := by
  unfold walkKeys
  split
  · exact (quiet_updSlot ..).trans (quiet_issueJob ..)
  · exact quiet_transition ..

theorem quiet_chargeDenial (i : SlotId) (s : State) : Quiet s (chargeDenial i s) := by
  unfold chargeDenial
  dsimp only
  split
  · exact (quiet_updSlot ..).trans (quiet_powerOff ..)
  · exact (quiet_updSlot ..).trans (quiet_walkKeys ..)

theorem quiet_takeInUnlocking (i : SlotId) (c : Completion) (s : State) : Quiet s (takeInUnlocking i c s) := by
  unfold takeInUnlocking
  split
  · split
    · exact quiet_walkKeys ..
    · exact quiet_toPowerWait ..
  · exact quiet_toPowerWait ..
  · exact quiet_chargeDenial ..
  · exact quiet_takeFault ..
  · exact quiet_takeFault ..
  · exact quiet_takeFault ..
  · exact quiet_takeFault ..
  · exact Quiet.refl s

theorem quiet_takeReady (i : SlotId) (s : State) : Quiet s (takeReady i s) := by
  unfold takeReady
  dsimp only
  split
  · exact (quiet_withdrawJob ..).trans ((quiet_transition ..).trans (quiet_examineSet ..))
  · exact (quiet_withdrawJob ..).trans (quiet_insertWindow ..)

theorem quiet_pollAgain (i : SlotId) (s : State) : Quiet s (pollAgain i s) := by
  unfold pollAgain
  split
  · exact quiet_pollStatus ..
  · exact Quiet.refl s

theorem quiet_takeInReadyWait (i : SlotId) (c : Completion) (s : State) : Quiet s (takeInReadyWait i c s) := by
  unfold takeInReadyWait
  split
  · split
    · exact quiet_takeReady ..
    · exact quiet_pollAgain ..
  · exact quiet_pollAgain ..
  · exact quiet_pollAgain ..
  · exact Quiet.refl s

theorem quiet_endCommit (i : SlotId) (n : Fin 8) (s : State) : Quiet s (endCommit i n s) := .of_link (endTransfer_link ..)

theorem quiet_takeInTransfer (i : SlotId) (n : Fin 8) (c : Completion) (s : State) :
    Quiet s (takeInTransfer i n c s) := by
  unfold takeInTransfer
  split
  · exact (quiet_updSlot ..).trans (quiet_nextBlock ..)
  · exact (quiet_endCommit ..).trans (quiet_insertWindow ..)
  · exact (quiet_endCommit ..).trans (quiet_takeFault ..)
  · exact (quiet_endCommit ..).trans (quiet_takeFault ..)
  · exact (quiet_endCommit ..).trans (quiet_takeFault ..)
  · exact quiet_takeFault ..
  · exact quiet_takeFault ..
  · exact Quiet.refl s

theorem quiet_takeCompletion (i : SlotId) (c : Completion) (s : State) : Quiet s (takeCompletion i c s) := by
  unfold takeCompletion
  split
  case h_1 => exact quiet_takeInIdentifying ..
  case h_2 => exact quiet_takeInUnlocking ..
  case h_3 => exact quiet_takeInReadyWait ..
  case h_4 =>
    split
    · exact quiet_takeInTransfer ..
    · exact Quiet.refl s
  all_goals exact Quiet.refl s

theorem quiet_takeNextCompletion (i : SlotId) (s : State) : Quiet s (takeNextCompletion i s) := by
  unfold takeNextCompletion
  split
  · exact (quiet_updSlot ..).trans ((quiet_takeCompletion ..).trans (quiet_transmit _))
  · exact Quiet.refl s

theorem quiet_takeCompletions (i : SlotId) (n : Nat) : ∀ s : State, Quiet s (takeCompletions i n s) := by
  induction n with
  | zero => exact fun s => Quiet.refl s
  | succ n ih => exact fun s => (quiet_takeNextCompletion i s).trans (ih _)

/-- What one completion taken leaves as it is, all of them do. -/
theorem catchUp_keeps {α : Type} {g : State → α} {i : SlotId} (h : ∀ s, g (takeNextCompletion i s) = g s) (s : State) :
    g (catchUp i s) = g s := by
  have hmany : ∀ n s, g (takeCompletions i n s) = g s := by
    intro n
    induction n with
    | zero => exact fun s => rfl
    | succ n ih => exact fun s => (ih _).trans (h s)
  exact hmany _ s

theorem catchUp_times (i : SlotId) (s : State) : (catchUp i s).times = s.times := by
  refine catchUp_keeps (g := State.times) (fun s => ?_) s
  unfold takeNextCompletion
  split
  · rw [transmit_times, (slotFrame_takeCompletion i _ _).times, updSlot_times]
  · rfl

theorem catchUp_monitor (i : SlotId) (s : State) : (catchUp i s).monitor = s.monitor := by
  refine catchUp_keeps (g := State.monitor) (fun s => ?_) s
  unfold takeNextCompletion
  split
  · rw [transmit_monitor, (slotFrame_takeCompletion i _ _).monitor, updSlot_monitor]
  · rfl

theorem quiet_catchUp (i : SlotId) (s : State) : Quiet s (catchUp i s) := quiet_takeCompletions ..

theorem quiet_catchUpIf (withdraws : Bool) (i : SlotId) (s : State) : Quiet s (catchUpIf withdraws i s) := by
  unfold catchUpIf
  split
  · exact quiet_catchUp ..
  · exact Quiet.refl s

end Sys2Proof.Machine
end

section
/-!
PROOF. Taking completions never empties a slot: a slot with a card present keeps it, or is barred (02 R47, 04 R76).
-/
namespace Sys2Proof.Machine

/-- The states that a slot with a card present comes to by its completions: card-present ones, and BARRED. -/
def SlotState.held (st : SlotState) : Bool := st.cardPresent || decide (st = .barred)

theorem SlotState.held_of_cardPresent {st : SlotState} (h : st.cardPresent = true) : st.held = true := by
  simp [SlotState.held, h]

/-- Every slot in a held state stays in one. -/
structure Held (s t : State) : Prop where
  slots : ∀ j, (s.slot j).state.held = true → (t.slot j).state.held = true

theorem Held.refl (s : State) : Held s s := ⟨fun _ h => h⟩

theorem Held.trans {a b c : State} (h1 : Held a b) (h2 : Held b c) : Held a c := ⟨fun j h => h2.slots j (h1.slots j h)⟩

theorem held_of_slots {s t : State} (h : ∀ j, (t.slot j).state = (s.slot j).state) : Held s t :=
  ⟨fun j hj => by rw [h]; exact hj⟩

theorem Held.from_slots {s u t : State} (h : Held u t) (hs : u.slots = s.slots) : Held s t :=
  (held_of_slots fun j => congrArg Slot.state (slot_congr j hs)).trans h

theorem held_updSlot (i : SlotId) (f : Slot → Slot) (s : State)
    (hf : ∀ c, (f c).state = c.state := by exact fun _ => rfl) : Held s (s.updSlot i f) := by
  refine held_of_slots fun j => ?_
  by_cases hj : j = i
  · subst hj; rw [slot_updSlot_self, hf]
  · rw [slot_updSlot_ne _ _ hj]

theorem held_transition (i : SlotId) {st : SlotState} (hst : st.held = true) (r : Reason) (s : State) :
    Held s (transition i st r s) := by
  refine ⟨fun j h => ?_⟩
  by_cases hj : j = i
  · subst hj; rw [slot_transition_self]; exact hst
  · rw [slot_transition_ne _ _ _ _ hj]; exact h

theorem held_writeReason (i : SlotId) (r : Reason) (s : State) : Held s (writeReason i r s) :=
  (held_updSlot i (fun c => { c with reason := r }) s).trans
    (held_of_slots fun j => congrArg Slot.state (slot_congr j rfl))

theorem held_issueJob (i : SlotId) (t : Transaction) (s : State) : Held s (issueJob i t s) :=
  held_of_slots fun j => by rw [slot_issueJob]

theorem held_withdrawJob (i : SlotId) (s : State) : Held s (withdrawJob i s) := by
  refine held_of_slots fun j => ?_
  by_cases hj : j = i
  · subst hj
    obtain ⟨q, hq⟩ := withdrawJob_slot j s
    rw [hq]
  · rw [slot_withdrawJob_ne _ _ hj]

theorem held_powerDown (i : SlotId) (s : State) : Held s (powerDown i s) := by
  refine held_of_slots fun j => ?_
  by_cases hj : j = i
  · subst hj
    obtain ⟨q, hq⟩ := powerDown_slot j s
    rw [hq]
  · rw [slot_powerDown_ne _ _ hj]

theorem held_examineFrom (q : List PowerEntry) : ∀ s : State, Held s (examineFrom q s) := by
  induction q with
  | nil => exact fun s => Held.refl s
  | cons e q ih =>
    intro s
    unfold examineFrom
    split
    · refine Held.trans ?_ (ih _)
      unfold grantPower
      dsimp only
      refine Held.trans ?_ (held_updSlot ..)
      exact (held_transition e.slot rfl .none _).from_slots rfl
    · exact Held.refl s

theorem held_joinPlan (i : SlotId) (plan : List PlanWindow) (s : State) : Held s (joinPlan i plan s) := by
  unfold joinPlan
  exact (held_transition i rfl .none _).from_slots rfl

theorem held_walkFrom (q : List SlotId) : ∀ s : State, Held s (walkFrom q s) := by
  induction q with
  | nil => exact fun s => Held.refl s
  | cons i q ih =>
    intro s
    unfold walkFrom
    split
    · exact (Held.from_slots (s := s) (held_joinPlan i _ (leaveRoom i s)) rfl).trans (ih _)
    · exact ih s

theorem held_followOn (i : SlotId) (before s : State) : Held s (followOn i before s) := by
  have hwalked : Held s (if before.planner.plans i then walkRoom s else s) := by
    split
    · exact held_walkFrom _ s
    · exact Held.refl s
  unfold followOn
  dsimp only
  split
  · exact hwalked.trans (held_examineFrom _ _)
  · exact hwalked

theorem held_powerOff (i : SlotId) {st : SlotState} (hst : st.held = true) (r : Reason) (s : State) :
    Held s (powerOff i st r s) :=
  (held_powerDown i s).trans ((held_transition i hst r _).trans (held_followOn ..))

theorem held_takeFault (i : SlotId) (code : Reason) (s : State) : Held s (takeFault i code s) := by
  unfold takeFault
  dsimp only
  split
  · exact (held_updSlot i _ s).trans ((held_powerOff i rfl _ _).trans (held_updSlot i _ _))
  · exact (held_updSlot i _ s).trans (held_powerOff i rfl _ _)

theorem held_toPowerWait (i : SlotId) (s : State) : Held s (toPowerWait i s) := by
  unfold toPowerWait
  dsimp only
  split
  · exact held_transition i rfl _ s
  · exact (held_transition i rfl .none s).trans ((held_examineFrom _ _).from_slots rfl)

theorem held_insertWindow (i : SlotId) (s : State) : Held s (insertWindow i s) := by
  unfold insertWindow
  split
  · exact held_joinPlan ..
  · exact (held_transition i rfl .noRoom _).from_slots rfl

theorem held_pollStatus (i : SlotId) (s : State) : Held s (pollStatus i s) :=
  (held_updSlot i _ s).trans (held_issueJob ..)

theorem held_nextBlock (i : SlotId) (n : Fin 8) (s : State) : Held s (nextBlock i n s) := by
  unfold nextBlock
  dsimp only
  split <;> exact held_issueJob ..

theorem held_endTransfer (i : SlotId) (n : Nat) (s : State) : Held s (endTransfer i n s) := by
  unfold endTransfer
  split
  · exact Held.refl s
  · next k _ =>
    exact (held_updSlot i (fun c => { c with wordsWritten := n, residual := s.sets[k].length - n, pin := none }) s).trans
      (held_of_slots fun j => congrArg Slot.state (slot_congr j rfl))

theorem held_startTransfer (i : SlotId) (n : Fin 8) (s : State) : Held s (startTransfer i n s) := by
  have hpinned : Held s { s.updSlot i (fun c => { c with pin := some n, transferCount := 0 }) with
      sets := s.sets.set n { s.sets[n] with pins := s.sets[n].pins + 1 } } :=
    (held_updSlot i (fun c => { c with pin := some n, transferCount := 0 }) s).trans
      (held_of_slots fun j => congrArg Slot.state (slot_congr j rfl))
  unfold startTransfer
  dsimp only
  refine Held.trans ?_ (held_nextBlock ..)
  split
  · exact hpinned.trans (held_writeReason ..)
  · exact hpinned

theorem held_examineSet (i : SlotId) (n : Fin 8) (s : State) : Held s (examineSet i n s) := by
  unfold examineSet
  split
  · split
    · exact held_takeFault ..
    · exact held_startTransfer ..
  · split
    · exact Held.refl s
    · exact held_writeReason ..

/-! ### Completions -/

theorem held_refuseCard (i : SlotId) (reason : Reason) (r : Screening) (s : State) : Held s (refuseCard i reason r s) :=
  (held_updSlot i _ s).trans (held_transition i rfl _ _)

theorem held_admitCard (i : SlotId) (s : State) : Held s (admitCard i s) := by
  unfold admitCard
  split
  · exact (held_transition i rfl .none s).trans ((held_updSlot i _ _).trans (held_issueJob ..))
  · exact held_toPowerWait ..

theorem held_screenCard (i : SlotId) (ident : List Byte) (s : State) : Held s (screenCard i ident s) := by
  unfold screenCard
  split
  · exact held_refuseCard ..
  · unfold screenTiming
    split
    · exact held_refuseCard ..
    · dsimp only
      split
      · exact held_refuseCard ..
      · split
        · exact held_refuseCard ..
        · split
          · exact (held_updSlot i _ s).trans
              ((held_transition i rfl .none _).trans (held_updSlot i _ _))
          · exact (held_updSlot i _ s).trans (held_admitCard ..)

theorem held_takeInIdentifying (i : SlotId) (c : Completion) (s : State) : Held s (takeInIdentifying i c s) := by
  unfold takeInIdentifying
  split
  · split
    · unfold takeHeader
      split
      · exact (held_updSlot i _ s).trans (held_issueJob ..)
      · exact held_transition i rfl _ s
    · unfold takeBody
      dsimp only
      split
      · exact held_screenCard ..
      · exact held_transition i rfl _ s
  · exact held_takeFault ..
  · exact held_takeFault ..
  · exact Held.refl s

theorem held_walkKeys (i : SlotId) (s : State) : Held s (walkKeys i s) := by
  unfold walkKeys
  split
  · exact (held_updSlot i _ s).trans (held_issueJob ..)
  · exact held_transition i rfl _ s

theorem held_takeInUnlocking (i : SlotId) (c : Completion) (s : State) : Held s (takeInUnlocking i c s) := by
  unfold takeInUnlocking
  split
  · split
    · exact held_walkKeys ..
    · exact held_toPowerWait ..
  · exact held_toPowerWait ..
  · unfold chargeDenial
    dsimp only
    split
    · exact (held_updSlot i _ s).trans (held_powerOff i rfl _ _)
    · exact (held_updSlot i _ s).trans (held_walkKeys ..)
  · exact held_takeFault ..
  · exact held_takeFault ..
  · exact held_takeFault ..
  · exact held_takeFault ..
  · exact Held.refl s

theorem held_pollAgain (i : SlotId) (s : State) : Held s (pollAgain i s) := by
  unfold pollAgain
  split
  · exact held_pollStatus ..
  · exact Held.refl s

theorem held_takeInReadyWait (i : SlotId) (c : Completion) (s : State) : Held s (takeInReadyWait i c s) := by
  unfold takeInReadyWait
  split
  · split
    · unfold takeReady
      dsimp only
      split
      · exact (held_withdrawJob i s).trans ((held_transition i rfl .none _).trans (held_examineSet ..))
      · exact (held_withdrawJob i s).trans (held_insertWindow ..)
    · exact held_pollAgain ..
  · exact held_pollAgain ..
  · exact held_pollAgain ..
  · exact Held.refl s

theorem held_takeInTransfer (i : SlotId) (n : Fin 8) (c : Completion) (s : State) : Held s (takeInTransfer i n c s) := by
  have ended : Held s (endCommit i n s) := held_endTransfer ..
  unfold takeInTransfer
  split
  · exact (held_updSlot i _ s).trans (held_nextBlock ..)
  · exact ended.trans (held_insertWindow ..)
  · exact ended.trans (held_takeFault ..)
  · exact ended.trans (held_takeFault ..)
  · exact ended.trans (held_takeFault ..)
  · exact held_takeFault ..
  · exact held_takeFault ..
  · exact Held.refl s

theorem held_takeCompletion (i : SlotId) (c : Completion) (s : State) : Held s (takeCompletion i c s) := by
  unfold takeCompletion
  split
  case h_1 => exact held_takeInIdentifying ..
  case h_2 => exact held_takeInUnlocking ..
  case h_3 => exact held_takeInReadyWait ..
  case h_4 =>
    split
    · exact held_takeInTransfer ..
    · exact Held.refl s
  all_goals exact Held.refl s

theorem state_transmit (s : State) (j : SlotId) : ((transmit s).slot j).state = (s.slot j).state := by
  rcases slot_transmit s j with h | h <;> rw [h]

theorem held_catchUp (i : SlotId) (s : State) : Held s (catchUp i s) := by
  have hnext : ∀ s, Held s (takeNextCompletion i s) := by
    intro s
    unfold takeNextCompletion
    split
    · exact (held_updSlot i _ s).trans ((held_takeCompletion ..).trans (held_of_slots (state_transmit _)))
    · exact Held.refl s
  have hmany : ∀ n s, Held s (takeCompletions i n s) := by
    intro n
    induction n with
    | zero => exact fun s => Held.refl s
    | succ n ih => exact fun s => (hnext s).trans (ih _)
  exact hmany _ s

/-- A slot whose card was there is held after its completions: where it is no longer card-present, it is BARRED. -/
theorem barred_of_catchUp {i : SlotId} {s : State} (h : (s.slot i).state.cardPresent = true)
    (hgone : ((catchUp i s).slot i).state.cardPresent = false) : ((catchUp i s).slot i).state = .barred := by
  have hheld := (held_catchUp i s).slots i (SlotState.held_of_cardPresent h)
  simpa [SlotState.held, hgone] using hheld

end Sys2Proof.Machine
end

section
/-!
PROOF. The contacts of a slot (01 R5, R6, R9 to R13): a raw change, and the debounce that ends.
-/
namespace Sys2Proof.Machine

theorem cardPresent_iff (st : SlotState) : st.cardPresent = true ↔ st ∈ [.identifying, .consentWait, .unlocking,
    .powerWait, .powering, .resetHold, .readyWait, .configuring, .roomWait, .joining, .running, .parked, .refused,
    .faulted, SlotState.cooldown] := by
  cases st <;> decide

theorem cardPresent_iff_not (st : SlotState) :
    st.cardPresent = true ↔ st ∉ [.empty, .mating, .removing, .disabled, SlotState.barred] := by
  cases st <;> decide

/-! ### Removal (01 R10, R11) -/

/-- The transition that empties a slot or has its card removed, with the power-down actions, measured from the contact's
write `f` for `Entered` and from before it for the rest. -/
theorem powerOff_written {i : SlotId} {st : SlotState} {r : Reason} {s : State} {f : Slot → Slot}
    (ht : st.timed = false) (hf : ∀ c, (f c).cutFields = c.cutFields) :
    Entered i st r 1 (s.updSlot i f) (powerOff i st r (s.updSlot i f)) ∧ PoweredDown i s (powerOff i st r (s.updSlot i f)) ∧
      SlotFrame i s (powerOff i st r (s.updSlot i f)) ∧
      (powerOff i st r (s.updSlot i f)).link.replies = s.link.replies :=
  ⟨entered_powerOff ht, (poweredDown_powerOff i st r _).of_updSlot (hf _),
    (slotFrame_updSlot i s f).trans (slotFrame_powerOff ..), powerOff_replies ..⟩

/-- The record after a removal keeps the allowance, the counts and the screening results. -/
theorem removeCard_written {i : SlotId} {s : State} {f : Slot → Slot}
    (hkept : ∀ c, ((f c).allowance, (f c).faultCount, (f c).screening, (f c).overruns) =
      (c.allowance, c.faultCount, c.screening, c.overruns)) :
    Keeps i s (powerOff i .removing .lateBreak (s.updSlot i f)) ∧
      ((powerOff i .removing .lateBreak (s.updSlot i f)).slot i).overruns = (s.slot i).overruns := by
  obtain ⟨q, hslot⟩ := powerDown_slot i (s.updSlot i f)
  rw [slot_updSlot_self] at hslot
  have hfields := hkept (s.slot i)
  simp only [Prod.mk.injEq] at hfields
  obtain ⟨hallowance, hfault, hscreening, hoverruns⟩ := hfields
  refine ⟨⟨?_, ?_, ?_⟩, ?_⟩ <;> rw [slot_powerOff, hslot]
  · exact hallowance
  · exact hfault
  · exact hscreening
  · exact hoverruns

/-! ### A raw change -/

/-- Settles O39. -/
theorem contactChangeDebouncedOrRemoves : Obligations.ContactChangeDebouncedOrRemoves := by
  intro s i made hlive c present moved
  have hexec : ∀ contact, made ≠ (s.slot i).raw contact → exec (.contactRawChange i contact made) s =
      .next (changeContact i contact made
        (catchUpIf (decide (contact = .late) && !made && (s.slot i).state.cardPresent) i s)) := by
    intro contact hne
    rw [exec_contactRawChange, if_neg (Ne.symm hne), if_neg (by simp [hlive])]
  have hmoved : ∀ u : State, ¬ (made = false ∧ (u.slot i).state.cardPresent = true) → u.times = s.times →
      changeContact i .late made u = u.setSlot i (moved (u.slot i) s.times.debounce) := by
    intro u hstays htimes
    have hno : ¬ (Contact.late = .late ∧ made = false ∧ (u.slot i).state.cardPresent = true) := fun h => hstays h.2
    rw [changeContact, if_neg hno, updSlot_updSlot, htimes]
    rfl
  refine ⟨fun hne => ?early, fun hne hstays => ?late, fun hne hbreak hpresent => ?breaks, fun heq => ?_, fun heq => ?_⟩
  case early =>
    rw [hexec .early hne]
    have hno : ¬ (Contact.early = .late ∧ made = false ∧ (s.slot i).state.cardPresent = true) := fun h => nomatch h.1
    show Host.Outcome.next (changeContact i .early made s) = _
    rw [changeContact, if_neg hno, updSlot_updSlot]
    rfl
  case late =>
    have hstays' : ¬ (made = false ∧ (s.slot i).state.cardPresent = true) := fun h =>
      hstays ⟨h.1, (cardPresent_iff _).1 h.2⟩
    have hcatch : (decide (Contact.late = .late) && !made && (s.slot i).state.cardPresent) = false := by
      cases made <;> simp_all
    rw [hexec .late hne, hcatch]
    exact congrArg _ (hmoved s hstays' rfl)
  case breaks =>
    have hcatch : (decide (Contact.late = .late) && !made && (s.slot i).state.cardPresent) = true := by
      rw [hbreak, (cardPresent_iff _).2 hpresent]
      rfl
    rw [hexec .late hne, hcatch]
    refine ⟨catchUp i s, (caughtUp_iff hlive).2 rfl, catchUp_nothing, fun hstill => ?_, fun hgone => ?_⟩
    · intro opened
      have hyes : Contact.late = .late ∧ made = false ∧ ((catchUp i s).slot i).state.cardPresent = true :=
        ⟨rfl, hbreak, (cardPresent_iff _).2 hstill⟩
      obtain ⟨hentered, hdown, hframe, hreplies⟩ := powerOff_written (i := i) (st := .removing) (r := .lateBreak)
        (s := catchUp i s) (f := fun c => { c with lateRaw := false, late := false, debounceLate := none }) rfl
        fun _ => rfl
      obtain ⟨hkeeps, hoverruns⟩ := removeCard_written (i := i) (s := catchUp i s)
        (f := fun c => { c with lateRaw := false, late := false, debounceLate := none }) fun _ => rfl
      refine ⟨_, congrArg _ ?_, hentered, hdown, hframe, hkeeps, hoverruns, hreplies.trans (quiet_catchUp i s).replies⟩
      show changeContact i .late made (catchUp i s) = _
      rw [changeContact, if_pos hyes, removeCard, updSlot_updSlot, hbreak]
      rfl
    · have hgone' : ¬ (made = false ∧ ((catchUp i s).slot i).state.cardPresent = true) := fun h =>
        hgone ((cardPresent_iff _).1 h.2)
      exact congrArg _ (hmoved (catchUp i s) hgone' (catchUp_times i s))
  · exact congrArg _ (if_pos heq.symm)
  · exact congrArg _ (if_pos heq.symm)

/-! ### The debounce that ends -/

theorem exec_debounceExpiry {s : State} (h : s.inReset = false) (i : SlotId) (contact : Contact) :
    exec (.debounceExpiry i contact) s = .next (expireDebounce i contact s) := whenLive_live h

theorem expireDebounce_runs {i : SlotId} {contact : Contact} {s : State}
    (h : ((s.slot i).debounceTimer contact).isSome) : expireDebounce i contact s =
      transmit (actOnContact i contact ((s.slot i).raw contact)
        ((catchUpIf (!(s.slot i).raw contact && (s.slot i).state.cardPresent) i s).updSlot i fun c =>
          c.setDebounced contact ((s.slot i).raw contact))) := if_pos h

/-- An entry of IDENTIFYING through MATING, LATE being made already (01 R6). -/
theorem identifies_throughMating (i : SlotId) {s : State} (hst : (s.slot i).state = .empty) :
    Identifies i .none 2 s (toIdentifying i .none (transition i .mating .none s)) := by
  have h := identifies_toIdentifying i .none (transition i .mating .none s)
  exact ⟨(slotFrame_transition i _ _ s).trans h.frame,
    (local_transition i .mating .none s).trans (by rw [← transition_engine i .mating .none s]; exact h.near),
    (entered_transition rfl).andThen h.entered (by rw [hst]; rfl), h.screening, h.issued, h.queued, h.aborted⟩

theorem cardGone_written (i : SlotId) (s : State) : Entered i .empty .none 1 s (cardGone i s) ∧ Local i s (cardGone i s) ∧
    (cardGone i s).link.replies = s.link.replies ∧
    (cardGone i s).slot i = ({ s.slot i with faultCount := 0 } : Slot).enter .empty .none := by
  refine ⟨(entered_transition rfl).of_counted, (local_updSlot ..).trans (local_transition ..), transition_replies .., ?_⟩
  rw [cardGone, slot_transition_self, slot_updSlot_self]

theorem state_setDebounced (i : SlotId) (contact : Contact) (made : Bool) (s : State) :
    ((s.updSlot i fun c => c.setDebounced contact made).slot i).state = (s.slot i).state := by
  rw [slot_updSlot_self]
  cases contact <;> rfl

theorem quiet_actOnContact (i : SlotId) (contact : Contact) (made : Bool) (s : State) :
    Quiet s (actOnContact i contact made s) := by
  unfold actOnContact
  split
  · split
    · exact (quiet_transition ..).trans (quiet_toIdentifying ..)
    · exact quiet_transition ..
  · exact quiet_toIdentifying ..
  · exact quiet_transition ..
  · exact (quiet_updSlot ..).trans (quiet_transition ..)
  · exact quiet_toIdentifying ..
  case h_11 => exact (quiet_updSlot ..).trans (quiet_powerOff ..)
  case h_12 => exact quiet_removeCard ..
  all_goals exact Quiet.refl s

/-- The debounce that ends, when no completion has to be taken before it. -/
theorem expireDebounce_stays {i : SlotId} {contact : Contact} {s : State}
    (h : ((s.slot i).debounceTimer contact).isSome)
    (hstays : ¬ ((s.slot i).raw contact = false ∧ (s.slot i).state.cardPresent = true)) :
    expireDebounce i contact s = transmit (actOnContact i contact ((s.slot i).raw contact)
      (s.updSlot i fun c => c.setDebounced contact ((s.slot i).raw contact))) := by
  have hcatch : (!(s.slot i).raw contact && (s.slot i).state.cardPresent) = false := by
    cases hraw : (s.slot i).raw contact
    · simpa [hraw] using hstays
    · rfl
  rw [expireDebounce_runs h, hcatch]
  rfl

/-- The debounce that ends in a break of a card-present state: the completions already sent come first (02 R45). -/
theorem expireDebounce_breaks {i : SlotId} {contact : Contact} {s : State}
    (h : ((s.slot i).debounceTimer contact).isSome) (hraw : (s.slot i).raw contact = false)
    (hpresent : (s.slot i).state.cardPresent = true) :
    expireDebounce i contact s = transmit (actOnContact i contact false
      ((catchUp i s).updSlot i fun c => c.setDebounced contact false)) := by
  rw [expireDebounce_runs h, hraw, hpresent]
  rfl

/-- A break in a card-present state, by the contact. -/
theorem actOnContact_break {i : SlotId} {s : State} {contact : Contact} (h : (s.slot i).state.cardPresent = true) :
    actOnContact i contact false s = match contact with
      | .early => earlyBreak i s
      | .late => removeCard i s := by
  rw [actOnContact_present contact false h]
  cases contact <;> rfl

/-- The record after an EARLY break (01 R11). -/
theorem slot_earlyBreak_kept (i : SlotId) (s : State) : ((earlyBreak i s).slot i).screening = Screening.absent ∧
    ((earlyBreak i s).slot i).faultCount = 0 ∧ ((earlyBreak i s).slot i).overruns = 0 ∧
    ((earlyBreak i s).slot i).allowance = (s.slot i).allowance := by
  obtain ⟨q, hslot⟩ := powerDown_slot i (s.updSlot i fun c => { c with faultCount := 0 })
  rw [slot_updSlot_self] at hslot
  rw [earlyBreak, slot_powerOff, hslot]
  exact ⟨rfl, rfl, rfl, rfl⟩

/-- A LATE found open by its debounce removes the card; `removeCard` opens LATE once more (log 15). -/
theorem entered_removeCard_open (i : SlotId) (u : State) :
    Entered i .removing .lateBreak 1 (u.updSlot i fun d => d.setDebounced .late false)
      (removeCard i (u.updSlot i fun d => d.setDebounced .late false)) := by
  rw [removeCard, updSlot_updSlot]
  exact entered_powerOff rfl

theorem removeCard_debounced (i : SlotId) (u : State) :
    PoweredDown i u (removeCard i (u.updSlot i fun d => d.setDebounced .late false)) ∧
      SlotFrame i u (removeCard i (u.updSlot i fun d => d.setDebounced .late false)) ∧
      Keeps i u (removeCard i (u.updSlot i fun d => d.setDebounced .late false)) := by
  rw [removeCard, updSlot_updSlot]
  obtain ⟨-, hdown, hframe, -⟩ := powerOff_written (i := i) (st := .removing) (r := .lateBreak) (s := u)
    (f := fun d => { d.setDebounced .late false with late := false, debounceLate := none }) rfl fun _ => rfl
  exact ⟨hdown, hframe, (removeCard_written
    (f := fun d => { d.setDebounced .late false with late := false, debounceLate := none }) fun _ => rfl).1⟩

/-- Settles O40: `expireDebounce` in each state, for each contact. -/
theorem debounceExpiryActsByState : Obligations.DebounceExpiryActsByState := by
  intro s i hlive c present early late answers
  have hpresent : ∀ st, st.cardPresent = true ↔ present st := cardPresent_iff_not
  have hcaught : s.caughtUp i (catchUp i s) := (caughtUp_iff hlive).2 rfl
  have hidle : ∀ contact, (c.debounceTimer contact).isSome = false → exec (.debounceExpiry i contact) s = .next s := by
    intro contact h
    rw [exec_debounceExpiry hlive, expireDebounce, if_neg (by simpa using h)]
  -- the state in which the slot acts, with no completion to take before
  have hstays : ∀ {contact : Contact} {made : Bool} {p : State → Prop}, (c.debounceTimer contact).isSome →
      c.raw contact = made → ¬ (made = false ∧ c.state.cardPresent = true) →
      p (actOnContact i contact made (s.updSlot i fun d => d.setDebounced contact made)) → answers contact p := by
    intro contact made p htimer hmade hno hp
    subst hmade
    refine ⟨_, ?_, ((quiet_updSlot ..).trans (quiet_actOnContact ..)).replies, hp⟩
    rw [exec_debounceExpiry hlive, expireDebounce_stays htimer hno]
  have hbreaks : ∀ {contact : Contact} {p : State → Prop}, (c.debounceTimer contact).isSome →
      c.raw contact = false → present c.state →
      p (actOnContact i contact false ((catchUp i s).updSlot i fun d => d.setDebounced contact false)) →
      answers contact p := by
    intro contact p htimer hraw hcard hp
    refine ⟨_, ?_, ((quiet_catchUp i s).trans ((quiet_updSlot ..).trans (quiet_actOnContact ..))).replies, hp⟩
    rw [exec_debounceExpiry hlive, expireDebounce_breaks htimer hraw ((hpresent _).2 hcard)]
  -- a slot that its completions have barred keeps its debounced contact alone
  have hbarred : ∀ contact, present c.state → ¬ present ((catchUp i s).slot i).state →
      actOnContact i contact false ((catchUp i s).updSlot i fun d => d.setDebounced contact false) =
        (catchUp i s).updSlot i fun d => d.setDebounced contact false := by
    intro contact hcard hgone
    have hbar := barred_of_catchUp ((hpresent _).2 hcard) (Bool.eq_false_iff.2 fun h => hgone ((hpresent _).1 h))
    exact actOnContact_held _ _ (.inr ((state_setDebounced ..).trans hbar))
  have hstate : ∀ {st : SlotState} (contact : Contact) (made : Bool), c.state = st →
      ((s.updSlot i fun d => d.setDebounced contact made).slot i).state = st := by
    intro st contact made hst
    exact (state_setDebounced ..).trans hst
  have hcard : ∀ {contact : Contact}, present ((catchUp i s).slot i).state →
      (((catchUp i s).updSlot i fun d => d.setDebounced contact false).slot i).state.cardPresent = true := by
    intro contact h
    rw [state_setDebounced]
    exact (hpresent _).2 h
  have hearly : ∀ {made : Bool} (x : State), c.earlyRaw = made →
      early x = x.updSlot i fun d => d.setDebounced .early made := fun x h => h ▸ rfl
  have hlates : ∀ {made : Bool} (x : State), c.lateRaw = made →
      late x = x.updSlot i fun d => d.setDebounced .late made := fun x h => h ▸ rfl
  have hheld : ∀ contact, (c.debounceTimer contact).isSome → c.state = .disabled ∨ c.state = .barred →
      answers contact fun t => t = s.updSlot i fun d => d.setDebounced contact (c.raw contact) := by
    intro contact htimer hst
    refine hstays htimer rfl (by rcases hst with hst | hst <;> simp [hst, SlotState.cardPresent]) ?_
    exact actOnContact_held _ _ (hst.imp (hstate _ _) (hstate _ _))
  refine ⟨fun h => hidle .early (by simp [Slot.debounceTimer, h]), fun h => hidle .late (by simp [Slot.debounceTimer, h]),
    fun htimer => ⟨fun hst hraw hlate => ?mating, fun hst hraw hlate => ?identifying, fun hst hraw => ?empty,
      fun hst hraw => ?gone, fun hst hraw => ⟨catchUp i s, hcaught, catchUp_nothing, fun hstill => ?earlyBreak,
        fun hgone => ?earlyBarred⟩, fun h => ?earlyNothing⟩,
    fun htimer => ⟨fun hst hraw => ?seated, fun hst hraw => ⟨catchUp i s, hcaught, catchUp_nothing,
      fun hstill => ?removal, fun hgone => ?lateBarred⟩, fun h => ?lateNothing⟩⟩
  case mating =>
    refine hstays htimer hraw (by simp) ?_
    rw [hearly s hraw, actOnContact_empty _ _ (hstate _ _ hst), if_pos ⟨rfl, rfl⟩, if_neg (by
      rw [slot_updSlot_self]
      exact Bool.eq_false_iff.1 hlate)]
    exact ⟨entered_transition rfl, (local_updSlot ..).trans (local_transition ..),
      by rw [slot_transition_self, slot_updSlot_self]; rfl, by rw [slot_transition_self, slot_updSlot_self]; rfl,
      by rw [slot_transition_self, slot_updSlot_self]; rfl⟩
  case identifying =>
    refine hstays htimer hraw (by simp) ?_
    rw [hearly s hraw, actOnContact_empty _ _ (hstate _ _ hst), if_pos ⟨rfl, rfl⟩, if_pos (by
      rw [slot_updSlot_self]
      exact hlate)]
    obtain ⟨q, hslot⟩ := slot_toIdentifying i .none
      (transition i .mating .none (s.updSlot i fun d => d.setDebounced .early true))
    rw [slot_transition_self, slot_updSlot_self] at hslot
    exact ⟨identifies_throughMating i (hstate _ _ hst), by rw [hslot]; rfl, by rw [hslot]; rfl⟩
  case empty =>
    refine hstays htimer hraw (by rw [show c.state = _ from hst]; simp [SlotState.cardPresent]) ?_
    rw [hearly s hraw, actOnContact_mating _ _ (hstate _ _ hst), if_neg (by simp), if_pos ⟨rfl, rfl⟩]
    exact ⟨entered_transition rfl, (local_updSlot ..).trans (local_transition ..),
      by rw [slot_transition_self, slot_updSlot_self]; rfl, by rw [slot_transition_self, slot_updSlot_self]; rfl⟩
  case gone =>
    refine hstays htimer hraw (by rw [show c.state = _ from hst]; simp [SlotState.cardPresent]) ?_
    rw [hearly s hraw, actOnContact_removing _ _ (hstate _ _ hst), if_neg (by simp), if_pos ⟨rfl, rfl⟩]
    obtain ⟨hentered, hlocal, -, hslot⟩ := cardGone_written i (s.updSlot i fun d => d.setDebounced .early false)
    rw [slot_updSlot_self] at hslot
    exact ⟨hentered, (local_updSlot ..).trans hlocal, by rw [hslot]; rfl, by rw [hslot]; rfl, by rw [hslot]; rfl,
      by rw [hslot]; rfl⟩
  case earlyBreak =>
    refine hbreaks htimer hraw hst ?_
    rw [hearly _ hraw, actOnContact_break (hcard hstill)]
    obtain ⟨hscreening, hfault, hoverruns, hallowance⟩ :=
      slot_earlyBreak_kept i ((catchUp i s).updSlot i fun d => d.setDebounced .early false)
    have hdown : PoweredDown i (catchUp i s) (earlyBreak i ((catchUp i s).updSlot i fun d => d.setDebounced .early false)) :=
      ((poweredDown_powerOff i .empty .earlyBreak _).of_updSlot rfl).of_updSlot rfl
    have hframe := (slotFrame_updSlot i (catchUp i s) fun d => d.setDebounced .early false).trans
      ((slotFrame_updSlot i _ fun d => { d with faultCount := 0 }).trans (slotFrame_powerOff i .empty .earlyBreak _))
    rw [slot_updSlot_self] at hallowance
    exact ⟨(entered_powerOff rfl).of_counted, hdown, hframe, hscreening, hfault, hoverruns, hallowance⟩
  case earlyBarred =>
    refine hbreaks htimer hraw hst ?_
    rw [hearly _ hraw]
    exact hbarred .early hst hgone
  case earlyNothing =>
    rcases h with ⟨hst, hraw⟩ | ⟨hst, hraw⟩ | ⟨hst, hraw⟩ | hst | hst | ⟨hst, hraw⟩
    · refine hstays htimer hraw (by rw [show c.state = _ from hst]; simp [SlotState.cardPresent]) ?_
      rw [hearly s hraw, actOnContact_empty _ _ (hstate _ _ hst), if_neg (by simp)]
    · refine hstays htimer hraw (by simp) ?_
      rw [hearly s hraw, actOnContact_mating _ _ (hstate _ _ hst), if_neg (by simp), if_neg (by simp)]
    · refine hstays htimer hraw (by simp) ?_
      rw [hearly s hraw, actOnContact_removing _ _ (hstate _ _ hst), if_neg (by simp), if_neg (by simp)]
    · exact hheld .early htimer (.inl hst)
    · exact hheld .early htimer (.inr hst)
    · refine hstays htimer hraw (by simp) ?_
      rw [hearly s hraw, actOnContact_present _ _ (by rw [state_setDebounced]; exact (hpresent _).2 hst), if_pos rfl]
  case seated =>
    refine hstays htimer hraw (by simp) ?_
    obtain ⟨q, hslot⟩ := slot_toIdentifying i .none (s.updSlot i fun d => d.setDebounced .late true)
    rw [slot_updSlot_self] at hslot
    have hacts : actOnContact i .late true (s.updSlot i fun d => d.setDebounced .late true) =
        toIdentifying i .none (s.updSlot i fun d => d.setDebounced .late true) := by
      rcases hst with hst | hst
      · rw [actOnContact_mating _ _ (hstate _ _ hst), if_pos ⟨rfl, rfl⟩]
      · rw [actOnContact_removing _ _ (hstate _ _ hst), if_pos ⟨rfl, rfl⟩]
    rw [hacts, hlates s hraw]
    exact ⟨identifies_toIdentifying .., by rw [hslot]; rfl, by rw [hslot]; rfl⟩
  case removal =>
    refine hbreaks htimer hraw hst ?_
    rw [hlates _ hraw, actOnContact_break (hcard hstill)]
    obtain ⟨hdown, hframe, hkeeps⟩ := removeCard_debounced i (catchUp i s)
    exact ⟨entered_removeCard_open .., hdown, hframe, hkeeps⟩
  case lateBarred =>
    refine hbreaks htimer hraw hst ?_
    rw [hlates _ hraw]
    exact hbarred .late hst hgone
  case lateNothing =>
    rcases h with hst | hst | hst | ⟨hst, hraw⟩ | ⟨hst, hraw⟩
    · refine hstays htimer rfl (by rw [show c.state = _ from hst]; simp [SlotState.cardPresent]) ?_
      rw [hlates s rfl, actOnContact_empty _ _ (hstate _ _ hst), if_neg (by simp)]
      rfl
    · exact hheld .late htimer (.inl hst)
    · exact hheld .late htimer (.inr hst)
    · rcases hst with hst | hst
      · refine hstays htimer hraw (by rw [show c.state = _ from hst]; simp [SlotState.cardPresent]) ?_
        rw [hlates s hraw, actOnContact_mating _ _ (hstate _ _ hst), if_neg (by simp), if_neg (by simp)]
      · refine hstays htimer hraw (by rw [show c.state = _ from hst]; simp [SlotState.cardPresent]) ?_
        rw [hlates s hraw, actOnContact_removing _ _ (hstate _ _ hst), if_neg (by simp), if_neg (by simp)]
    · refine hstays htimer hraw (by simp) ?_
      rw [hlates s hraw, actOnContact_present _ _ (by rw [state_setDebounced]; exact (hpresent _).2 hst), if_pos rfl]

end Sys2Proof.Machine
end

section
/-!
PROOF. The service link port keeps its order in every step (10 R186, R187, R190 to R192, R194): an event of another block
posts notices and ends with the transmitter's choice, and the port's own events are gone through one by one.
-/
namespace Sys2Proof.Machine

/-! ### The commands post notices alone -/

theorem quiet_onSlot {slot : Byte} {act : SlotId → State → State × Answer} (h : ∀ i s, Quiet s (act i s).1) (s : State) :
    Quiet s (onSlot slot act s).1 := by
  unfold onSlot
  split
  · exact h ..
  · exact Quiet.refl s

theorem quiet_onSet {set : Byte} {act : Fin 8 → State → State × Answer} (h : ∀ n s, Quiet s (act n s).1) (s : State) :
    Quiet s (onSet set act s).1 := by
  unfold onSet
  split
  · exact h ..
  · exact Quiet.refl s

theorem quiet_answerSlotConsent (slot decision : Byte) (s : State) : Quiet s (answerSlotConsent slot decision s).1 := by
  refine quiet_onSlot (fun i s => ?_) s
  split
  · exact Quiet.refl s
  · split
    · exact Quiet.refl s
    · split
      · exact quiet_admitCard ..
      · exact quiet_transition ..

theorem quiet_parkSlot (i : SlotId) (s : State) : Quiet s (parkSlot i s).1 := by
  unfold parkSlot
  split
  · exact quiet_powerOff ..
  · exact Quiet.refl s

theorem quiet_answerSlotPark (slot : Byte) (s : State) : Quiet s (answerSlotPark slot s).1 := by
  exact quiet_onSlot (fun i s => (quiet_catchUpIf (s.slot i).state.parkable i s).trans (quiet_parkSlot i _)) s

theorem quiet_answerSlotResume (slot : Byte) (s : State) : Quiet s (answerSlotResume slot s).1 := by
  refine quiet_onSlot (fun i s => ?_) s
  split
  · exact quiet_toPowerWait ..
  · exact Quiet.refl s

theorem quiet_answerSlotRestart (slot : Byte) (s : State) : Quiet s (answerSlotRestart slot s).1 := by
  refine quiet_onSlot (fun i s => ?_) s
  split
  case h_1 | h_2 | h_3 => exact (quiet_updSlot ..).trans (quiet_toIdentifying ..)
  all_goals exact Quiet.refl s

theorem quiet_answerSlotDisable (slot : Byte) (s : State) : Quiet s (answerSlotDisable slot s).1 := by
  refine quiet_onSlot (fun i s => ?_) s
  split
  · exact Quiet.refl s
  · exact (quiet_catchUp i s).trans (quiet_powerOff ..)

theorem quiet_answerSlotEnable (slot : Byte) (s : State) : Quiet s (answerSlotEnable slot s).1 := by
  refine quiet_onSlot (fun i s => ?_) s
  split
  · exact (quiet_updSlot ..).trans (quiet_toContactState ..)
  · exact Quiet.refl s

theorem quiet_answerSlotClearBar (slot : Byte) (s : State) : Quiet s (answerSlotClearBar slot s).1 := by
  refine quiet_onSlot (fun i s => ?_) s
  split
  · exact Quiet.refl s
  · split
    · exact Quiet.refl s
    · exact (quiet_updSlot ..).trans (quiet_toContactState ..)

theorem quiet_answerParamBegin (set : Byte) (length : Word) (s : State) : Quiet s (answerParamBegin set length s).1 := by
  refine quiet_onSet (fun n s => ?_) s
  split
  · exact Quiet.refl s
  · split
    · exact Quiet.refl s
    · exact .of_link rfl

theorem quiet_loadWords (n : Fin 8) (words : List Word) (s : State) : Quiet s (loadWords n words s) := by
  unfold loadWords
  dsimp only
  split <;> exact .of_link rfl

theorem quiet_answerParamLoad (set : Byte) (offset : Word) (count : Byte) (words : List Word) (s : State) :
    Quiet s (answerParamLoad set offset count words s).1 := by
  unfold answerParamLoad
  split
  · exact Quiet.refl s
  · refine quiet_onSet (fun n s => ?_) s
    repeat' split
    all_goals first | exact Quiet.refl s | exact quiet_loadWords ..

theorem quiet_answerParamFree (set : Byte) (s : State) : Quiet s (answerParamFree set s).1 := by
  refine quiet_onSet (fun n s => ?_) s
  split
  · exact Quiet.refl s
  · exact .of_link rfl

theorem quiet_refuseQueued (q : List PowerEntry) : ∀ s : State, Quiet s (refuseQueued q s) := by
  induction q with
  | nil => exact fun s => Quiet.refl s
  | cons e q ih =>
    intro s
    refine Quiet.trans ?_ (ih _)
    split
    · exact (quiet_powerDown ..).trans (quiet_transition ..)
    · exact Quiet.refl s

theorem quiet_applyPower (v : PowerFields) (s : State) : Quiet s (applyPower v s) := by
  have hstored : Quiet s (recomputeThresholds (storePower v s)) := .of_link rfl
  unfold applyPower
  dsimp only
  refine Quiet.trans ?_ (quiet_examine _)
  split
  · exact hstored.trans (quiet_refuseQueued ..)
  · exact hstored

theorem quiet_answerSetPower (v : PowerFields) (s : State) : Quiet s (answerSetPower v s).1 := by
  unfold answerSetPower
  split
  · exact Quiet.refl s
  · split
    · exact Quiet.refl s
    · exact quiet_applyPower v s

theorem quiet_applyCycle (v : CycleSettings) (s : State) : Quiet s (applyCycle v s) := by
  have hmoved : Quiet s (if v.mode = s.planner.settings.mode then
      { s with planner := { s.planner with settings := v } }
      else postCycle .stateChange (changeMode v { s with planner := { s.planner with settings := v } })) := by
    split
    · exact .of_link rfl
    · exact (quiet_postCycle ..).from_link rfl
  unfold applyCycle
  dsimp only
  split
  · exact hmoved.trans (quiet_walkRoom _)
  · exact hmoved

theorem quiet_answerSetCycle (mode : Byte) (length : Long) (tolerance : Word) (s : State) :
    Quiet s (answerSetCycle mode length tolerance s).1 := by
  unfold answerSetCycle
  split
  · exact Quiet.refl s
  · dsimp only [judgeCycle]
    repeat' split
    all_goals first | exact Quiet.refl s | exact quiet_applyCycle ..

theorem quiet_answerRecSet (v : RecSetFields) (s : State) : Quiet s (answerRecSet v s).1 := by
  unfold answerRecSet
  split
  · exact Quiet.refl s
  · split
    · exact Quiet.refl s
    · exact .of_link rfl

theorem quiet_answerRecArm (s : State) : Quiet s (answerRecArm s).1 := by
  unfold answerRecArm
  split
  · exact (quiet_postRecorder ..).from_link rfl
  · exact Quiet.refl s

theorem quiet_answerRecStop (s : State) : Quiet s (answerRecStop s).1 := by
  unfold answerRecStop
  split
  · exact Quiet.refl s
  · exact (quiet_postRecorder ..).from_link rfl

theorem quiet_answerRecTrigger (s : State) : Quiet s (answerRecTrigger s).1 := by
  unfold answerRecTrigger
  split
  · exact Quiet.refl s
  · exact .of_link rfl

theorem quiet_answerRecRelease (s : State) : Quiet s (answerRecRelease s).1 := by
  unfold answerRecRelease
  split
  · exact Quiet.refl s
  · dsimp only
    split
    · exact (quiet_postRecorder ..).from_link rfl
    · exact .of_link rfl

/-- A command's effect posts notices alone, but for the restart wait of WARM_RESTART. -/
theorem quiet_hostAct {act : State → State × Answer} (h : HostAct act) (s : State) :
    Quiet s (act s).1 ∨ act = answerWarmRestart := by
  cases h with
  | reads h => exact .inl (by rw [h]; exact Quiet.refl s)
  | settings h =>
    obtain ⟨times, policy, keys, hs⟩ := h s
    exact .inl (by rw [hs]; exact .of_link rfl)
  | warmRestart => exact .inr rfl
  | setPower v => exact .inl (quiet_answerSetPower v s)
  | setCycle mode length tolerance => exact .inl (quiet_answerSetCycle mode length tolerance s)
  | slotConsent slot decision => exact .inl (quiet_answerSlotConsent slot decision s)
  | slotPark slot => exact .inl (quiet_answerSlotPark slot s)
  | slotResume slot => exact .inl (quiet_answerSlotResume slot s)
  | slotRestart slot => exact .inl (quiet_answerSlotRestart slot s)
  | slotDisable slot => exact .inl (quiet_answerSlotDisable slot s)
  | slotEnable slot => exact .inl (quiet_answerSlotEnable slot s)
  | slotClearBar slot => exact .inl (quiet_answerSlotClearBar slot s)
  | paramBegin set length => exact .inl (quiet_answerParamBegin set length s)
  | paramLoad set offset count words => exact .inl (quiet_answerParamLoad set offset count words s)
  | paramFree set => exact .inl (quiet_answerParamFree set s)
  | recSet v => exact .inl (quiet_answerRecSet v s)
  | recArm => exact .inl (quiet_answerRecArm s)
  | recStop => exact .inl (quiet_answerRecStop s)
  | recTrigger => exact .inl (quiet_answerRecTrigger s)
  | recRelease => exact .inl (quiet_answerRecRelease s)

/-! ### Events of the other blocks -/

/-- Nothing waits beside an idle transmitter (10 R191). -/
def State.settled (s : State) : Prop := s.link.tx = none → s.link.replies = [] ∧ s.link.notices = []

theorem settled_transmit (s : State) : (transmit s).settled := transmit_idle

/-- An event of another block: it posts notices alone, and leaves nothing waiting beside an idle transmitter. -/
structure Serves (s t : State) : Prop where
  quiet : Quiet s t
  settled : s.settled → t.settled

theorem Serves.of_link {s t : State} (h : t.link = s.link) : Serves s t :=
  ⟨.of_link h, by unfold State.settled; rw [h]; exact id⟩

theorem Serves.refl (s : State) : Serves s s := .of_link rfl

theorem Serves.trans {a b c : State} (h1 : Serves a b) (h2 : Serves b c) : Serves a c :=
  ⟨h1.quiet.trans h2.quiet, fun h => h2.settled (h1.settled h)⟩

theorem Serves.from_link {s u t : State} (h : Serves u t) (hl : u.link = s.link) : Serves s t := (Serves.of_link hl).trans h

/-- An event that ends with the transmitter's choice. -/
theorem Quiet.serves {s t : State} (h : Quiet s t) : Serves s (Machine.transmit t) :=
  ⟨h.trans (quiet_transmit t), fun _ => settled_transmit t⟩

/-! #### The slots -/

theorem serves_takeNextCompletion (i : SlotId) (s : State) : Serves s (takeNextCompletion i s) := by
  unfold takeNextCompletion
  split
  · exact ((quiet_updSlot ..).trans (quiet_takeCompletion ..)).serves
  · exact Serves.refl s

theorem serves_takeCompletions (i : SlotId) (n : Nat) : ∀ s : State, Serves s (takeCompletions i n s) := by
  induction n with
  | zero => exact fun s => Serves.refl s
  | succ n ih => exact fun s => (serves_takeNextCompletion i s).trans (ih _)

theorem serves_catchUpIf (withdraws : Bool) (i : SlotId) (s : State) : Serves s (catchUpIf withdraws i s) := by
  unfold catchUpIf
  split
  · exact serves_takeCompletions ..
  · exact Serves.refl s

theorem serves_changeContact (i : SlotId) (contact : Contact) (made : Bool) (s : State) :
    Serves s (changeContact i contact made s) := by
  unfold changeContact
  dsimp only
  split
  · exact ((quiet_updSlot ..).trans (quiet_removeCard ..)).serves
  · exact .of_link rfl

theorem serves_expireDebounce (i : SlotId) (contact : Contact) (s : State) : Serves s (expireDebounce i contact s) := by
  unfold expireDebounce
  split
  · exact ((quiet_catchUpIf ..).trans ((quiet_updSlot ..).trans (quiet_actOnContact ..))).serves
  · exact Serves.refl s

theorem serves_expireCooldown (i : SlotId) (s : State) : Serves s (expireCooldown i s) := by
  unfold expireCooldown
  split
  · refine Quiet.serves ?_
    split
    · exact quiet_toIdentifying ..
    · exact quiet_toPowerWait ..
  · exact Serves.refl s

theorem serves_expireConsent (i : SlotId) (s : State) : Serves s (expireConsent i s) := by
  unfold expireConsent
  split
  · exact (quiet_transition ..).serves
  · exact Serves.refl s

theorem serves_expireRamp (i : SlotId) (s : State) : Serves s (expireRamp i s) := by
  unfold expireRamp
  split
  · exact (quiet_takeFault ..).serves
  · exact Serves.refl s

theorem serves_expireResetHold (i : SlotId) (s : State) : Serves s (expireResetHold i s) := by
  unfold expireResetHold
  split
  · exact (quiet_toReadyWait ..).serves
  · exact Serves.refl s

theorem serves_expirePoll (i : SlotId) (s : State) : Serves s (expirePoll i s) := by
  unfold expirePoll
  split
  · split
    · exact .of_link rfl
    · exact .of_link (pollStatus_link ..)
  · exact Serves.refl s

theorem serves_expireReady (i : SlotId) (s : State) : Serves s (expireReady i s) := by
  unfold expireReady
  split
  · exact (quiet_takeFault ..).serves
  · exact Serves.refl s

theorem serves_expireSettle (i : SlotId) (s : State) : Serves s (expireSettle i s) := by
  unfold expireSettle
  split
  · exact .of_link rfl
  · exact Serves.refl s

theorem quiet_notePattern (above : Bool) (i : SlotId) (s : State) : Quiet s (notePattern above i s) := by
  unfold notePattern
  split
  · exact .of_link (setPattern_link ..)
  · exact Quiet.refl s

theorem quiet_countInService (i : SlotId) (f : MonitorSample) (s : State) : Quiet s (countInService i f s) :=
  (quiet_updSlot i _ s).trans (quiet_notePattern ..)

theorem quiet_faultWithTrigger (i : SlotId) (code : Reason) (source : TriggerSource) (s : State) :
    Quiet s (faultWithTrigger i code source s) := (quiet_takeFault i code s).to_link (presentTrigger_link ..)

theorem quiet_rampSuccess (i : SlotId) (s : State) : Quiet s (rampSuccess i s) := by
  rw [rampSuccess_eq]
  have hheld : Quiet s (rampHeld i s) := (quiet_transition i .resetHold .none s).trans (quiet_updSlot ..)
  exact hheld.trans ((quiet_examine _).from_link rfl)

/-- A frame's runs are counted, and then it is a fault, a success or neither. -/
theorem serves_counted {s u : State} (h : Quiet s u) (hlink : u.link = s.link) {a b : Prop} [Decidable a] [Decidable b]
    {v w : State} (hv : Quiet u v) (hw : Quiet u w) :
    Serves s (if a then transmit v else if b then transmit w else u) := by
  split
  · exact (h.trans hv).serves
  · split
    · exact (h.trans hw).serves
    · exact .of_link hlink

theorem notePattern_link (above : Bool) (i : SlotId) (s : State) : (notePattern above i s).link = s.link := by
  unfold notePattern
  split
  · exact setPattern_link ..
  · rfl

theorem serves_takeFrame (i : SlotId) (f : MonitorSample) (s : State) : Serves s (takeFrame i f s) := by
  unfold takeFrame
  split
  · exact serves_counted ((quiet_updSlot i _ s).trans (quiet_notePattern ..)) (notePattern_link ..)
      (quiet_faultWithTrigger ..) (quiet_rampSuccess ..)
  · split
    · exact serves_counted (quiet_countInService i f s) (notePattern_link ..) (quiet_faultWithTrigger ..)
        (quiet_faultWithTrigger ..)
    · exact Serves.refl s

theorem serves_takeNextFrame (i : SlotId) (s : State) : Serves s (takeNextFrame i s) := by
  unfold takeNextFrame
  split
  · exact (serves_catchUpIf (frameFaults i _ s) i s).trans ((serves_takeFrame ..).from_link rfl)
  · exact Serves.refl s

theorem serves_takeNextAnnouncement (i : SlotId) (s : State) : Serves s (takeNextAnnouncement i s) := by
  unfold takeNextAnnouncement
  split
  · unfold takeAnnouncement
    dsimp only
    split
    · exact ((quiet_updSlot ..).trans (quiet_examineSet ..)).serves
    · exact .of_link rfl
  · exact Serves.refl s

theorem serves_takeAdoption (i : SlotId) (s : State) : Serves s (takeAdoption i s) := by
  unfold takeAdoption
  dsimp only
  split
  · exact Serves.refl s
  · split
    · exact ((quiet_updSlot ..).trans (quiet_transition ..)).serves
    · exact .of_link rfl

theorem serves_takeNextOutcome (i : SlotId) (s : State) : Serves s (takeNextOutcome i s) := by
  unfold takeNextOutcome
  split
  · dsimp only
    split
    · unfold actOnOutcome
      dsimp only
      split
      · exact .of_link rfl
      · split
        · exact ((quiet_updSlot ..).trans ((quiet_updSlot ..).trans (quiet_takeFault ..))).serves
        · exact .of_link rfl
    · exact .of_link rfl
  · exact Serves.refl s

/-! #### The engine and the monitor -/

theorem serves_completeJob (how : BusEnd) (s : State) : Serves s (completeJob how s) := by
  refine .of_link ?_
  unfold completeJob
  dsimp only
  repeat' split
  all_goals first | rfl | exact endJob_link ..

theorem serves_timeOutByte (late : LateByte) (s : State) : Serves s (timeOutByte late s) := by
  refine .of_link ?_
  unfold timeOutByte
  dsimp only
  repeat' split
  all_goals first | rfl | exact endJob_link ..

theorem serves_sampleFrame (f : MonitorSample) (s : State) : Serves s (sampleFrame f s) := by
  refine .of_link ?_
  unfold sampleFrame
  dsimp only
  split
  · exact presentTrigger_link ..
  · rfl

/-! #### The sequencer -/

theorem startCycle_link (s : State) : (startCycle s).link = s.link := (startsCycle_startCycle s).2

theorem quiet_postedStart (cause : CycleCause) {s u : State} (h : u.link = s.link) :
    Quiet s (postCycle cause (startCycle u)) := (quiet_postCycle ..).from_link ((startCycle_link u).trans h)

theorem serves_takeIllegal (s : State) : Serves s (takeIllegal s) := by
  unfold takeIllegal
  dsimp only
  refine ((quiet_postCycle ..).from_link ?_).serves
  split <;> rfl

theorem serves_endPulse (width sinceStart : Nat) (s : State) : Serves s (endPulse width sinceStart s) := by
  unfold endPulse
  split
  · exact Serves.refl s
  · split
    · exact .of_link rfl
    · split
      · exact Serves.refl s
      · split
        · exact serves_takeIllegal s
        · split
          · unfold takeMark
            dsimp only
            split
            · exact (quiet_postedStart _ (by exact rfl)).serves
            · exact (quiet_postedStart _ (by exact rfl)).serves
            · split
              · exact (quiet_postedStart _ (by exact rfl)).serves
              · split
                · exact .of_link (startCycle_link s)
                · exact Serves.refl s
            · exact Serves.refl s
            · exact Serves.refl s
          · exact Serves.refl s

theorem serves_longPulse (s : State) : Serves s (longPulse s) := by
  unfold longPulse
  split
  · exact (serves_takeIllegal _).from_link rfl
  · exact Serves.refl s

theorem serves_loseMark (s : State) : Serves s (loseMark s) := by
  unfold loseMark
  split
  · exact Quiet.serves ((quiet_postCycle ..).from_link rfl)
  · exact Serves.refl s

theorem serves_startWindow (s : State) : Serves s (startWindow s) := by
  refine .of_link ?_
  unfold startWindow
  repeat' split
  all_goals rfl

/-! #### The recorder -/

theorem serves_recorderFrame (s : State) : Serves s (recorderFrame s) := by
  have hwritten : ∀ (reference : Option (SlotId × Nat)) (u : State), (writeTraceRef reference u).link = u.link := by
    intro reference u
    cases reference <;> rfl
  unfold recorderFrame
  split
  · dsimp only
    unfold noticeCause
    split
    · exact ((quiet_postRecorder ..).from_link (by rw [hwritten]; rfl)).serves
    · exact .of_link (by rw [hwritten]; rfl)
  · exact Serves.refl s

end Sys2Proof.Machine
end

section
/-!
PROOF. The port's own events: bytes and frames received, frames sent, commands taken and the warm restart (10 R186 to R195).
-/
namespace Sys2Proof.Machine

/-- The port's queues, receiver and counts, apart from what may wait beside an idle transmitter. -/
def Link.ordered (l : Link) : Prop :=
  l.replies.length ≤ 4 ∧ (l.notices.map Notice.source).Nodup ∧ l.sendsOldest ∧ l.receiver.sound ∧
    (l.restartWait = true → l.replies ≠ []) ∧ l.checkFailures ≤ 65535 ∧ l.gapAborts ≤ 65535 ∧ l.overruns ≤ 65535

theorem linkSound_iff (s : State) : s.linkSound ↔ s.link.ordered ∧ (s.inReset = false → s.settled) := by
  unfold State.linkSound Link.ordered State.settled
  simp only [and_assoc]

theorem Quiet.ordered {s t : State} (h : Quiet s t) (ho : s.link.ordered) : t.link.ordered := by
  obtain ⟨hfour, hnodup, holdest, hreceiver, hwait, hchecks, hgaps, hoverruns⟩ := ho
  have hfield : ∀ {α : Type} (g : Link → α), g { t.link with notices := s.link.notices, tx := s.link.tx } = g s.link :=
    fun g => congrArg g h.link
  have hr := hfield Link.replies
  have hc := hfield Link.receiver
  have hw := hfield Link.restartWait
  have h1 := hfield Link.checkFailures
  have h2 := hfield Link.gapAborts
  have h3 := hfield Link.overruns
  dsimp only at hr hc hw h1 h2 h3
  unfold Link.ordered
  rw [hr, hc, hw, h1, h2, h3]
  exact ⟨hfour, h.nodup hnodup, h.oldest holdest, hreceiver, hwait, hchecks, hgaps, hoverruns⟩

/-- The port in order, with nothing waiting beside an idle transmitter. -/
def State.portSound (s : State) : Prop := s.link.ordered ∧ s.settled

theorem Serves.portSound {s t : State} (h : Serves s t) (hs : s.portSound) : t.portSound :=
  ⟨h.quiet.ordered hs.1, h.settled hs.2⟩

theorem portSound_transmit {s : State} (h : s.link.ordered) : (transmit s).portSound :=
  ⟨(quiet_transmit s).ordered h, settled_transmit s⟩

/-! ### Bytes and frames received -/

theorem portSound_setReceiver {r : Receiver} {s : State} (hr : r.sound) (h : s.portSound) :
    (setReceiver r s).portSound := by
  obtain ⟨⟨hfour, hnodup, holdest, -, hrest⟩, hsettled⟩ := h
  exact ⟨⟨hfour, hnodup, holdest, hr, hrest⟩, hsettled⟩

theorem portSound_dropChecked {s : State} (h : s.portSound) : (dropChecked s).portSound := by
  unfold dropChecked
  split
  · exact h
  · obtain ⟨⟨hfour, hnodup, holdest, hr, hwait, hchecks, hrest⟩, hsettled⟩ := h
    exact ⟨⟨hfour, hnodup, holdest, hr, hwait, saturate_le hchecks, hrest⟩, hsettled⟩

/-- A reply joins a queue with a place; the reply on the line stays the oldest. -/
theorem ordered_queueReply {kind tag : Byte} {a : Answer} {s : State} (hroom : s.link.replies.length < 4)
    (h : s.link.ordered) : (queueReply kind tag a s).link.ordered := by
  obtain ⟨-, hnodup, holdest, hr, -, hcounts⟩ := h
  refine ⟨?_, hnodup, ?_, hr, fun _ => by simp [queueReply], hcounts⟩
  · show (s.link.replies ++ [_]).length ≤ 4
    simp only [List.length_append, List.length_singleton]
    omega
  · unfold Link.sendsOldest at *
    split
    · next bytes htx =>
      rw [show s.link.tx = some (.reply bytes) from htx] at holdest
      show (s.link.replies ++ [_]).head?.map Reply.frame = some bytes
      cases hreplies : s.link.replies with
      | nil => rw [hreplies] at holdest; cases holdest
      | cons r rest => rw [hreplies] at holdest; exact holdest
    all_goals trivial

/-- The restart wait is entered with its reply queued in the same event. -/
theorem ordered_restartReply {kind tag : Byte} {s : State} (hroom : s.link.replies.length < 4) (h : s.link.ordered) :
    (queueReply kind tag (answerWarmRestart s).2 (answerWarmRestart s).1).link.ordered := by
  obtain ⟨hfour, hnodup, holdest, hr, -, hcounts⟩ :=
    ordered_queueReply (kind := kind) (tag := tag) (a := (answerWarmRestart s).2) hroom h
  exact ⟨hfour, hnodup, holdest, hr, fun _ => by simp [queueReply], hcounts⟩

theorem portSound_takeCommand {kind tag : Byte} {act : State → State × Answer} (hact : HostAct act) {s : State}
    (h : s.portSound) : (takeCommand kind tag act s).portSound := by
  unfold takeCommand
  split
  · exact h
  · split
    · obtain ⟨⟨hfour, hnodup, holdest, hr, hwait, hchecks, hgaps, hoverruns⟩, hsettled⟩ := h
      exact ⟨⟨hfour, hnodup, holdest, hr, hwait, hchecks, hgaps, saturate_le hoverruns⟩, hsettled⟩
    · next hroom =>
      have hplace : s.link.replies.length < 4 := Nat.lt_of_not_le hroom
      refine portSound_transmit ?_
      rcases quiet_hostAct hact s with hq | rfl
      · exact ordered_queueReply (by rw [hq.replies]; exact hplace) (hq.ordered h.1)
      · exact ordered_restartReply hplace h.1

theorem portSound_judgeFrame (taken : List Byte) {s : State} (h : s.portSound) : (judgeFrame taken s).portSound := by
  unfold judgeFrame
  dsimp only
  split
  · exact portSound_takeCommand (hostAct_frameCommand _ _) (portSound_setReceiver trivial h)
  · exact portSound_dropChecked (portSound_setReceiver trivial h)

theorem portSound_takeByte (b : Byte) {s : State} (h : s.portSound) : (takeByte b s).portSound := by
  have hreceiver := h.1.2.2.2.1
  unfold takeByte
  split
  · split
    · exact portSound_setReceiver trivial h
    · exact h
  · split
    · exact portSound_dropChecked (portSound_setReceiver trivial h)
    · next hfits => exact portSound_setReceiver ⟨Nat.le_of_not_lt hfits, Nat.zero_le _⟩ h
  · next taken hne hrec =>
    split
    · exact portSound_judgeFrame _ h
    · next hmore =>
      refine portSound_setReceiver ?_ h
      rw [hrec] at hreceiver
      cases taken with
      | nil => exact absurd rfl hne
      | cons len rest =>
        obtain ⟨hlen, hrest⟩ := hreceiver
        have hnot : rest.length ≠ len.toNat + 3 := by simpa [awaitsLast] using hmore
        refine ⟨hlen, ?_⟩
        show (rest ++ [b]).length ≤ len.toNat + 3
        rw [List.length_append, List.length_singleton]
        omega

theorem portSound_endFrame (b : Byte) {s : State} (h : s.portSound) : (endFrame b s).portSound := by
  unfold endFrame
  split
  · exact h
  · split
    · exact portSound_judgeFrame _ h
    · exact h

theorem portSound_abortGap {s : State} (h : s.portSound) : (abortGap s).portSound := by
  unfold abortGap
  split
  · exact h
  · dsimp only
    split
    · exact portSound_setReceiver trivial h
    · obtain ⟨⟨hfour, hnodup, holdest, -, hwait, hchecks, hgaps, hoverruns⟩, hsettled⟩ := h
      exact ⟨⟨hfour, hnodup, holdest, trivial, hwait, hchecks, saturate_le hgaps, hoverruns⟩, hsettled⟩

/-! ### The warm restart and frames sent -/

theorem quiet_restartSlots (l : List SlotId) : ∀ s : State, Quiet s (l.foldl restartSlot s) := by
  induction l with
  | nil => exact fun s => Quiet.refl s
  | cons i l ih =>
    intro s
    refine Quiet.trans ?_ (ih _)
    unfold restartSlot
    split
    · exact (quiet_powerDown ..).trans (quiet_toIdentifying ..)
    · exact Quiet.refl s

theorem quiet_restartRecorder (s : State) : Quiet s (restartRecorder s) := by
  unfold restartRecorder
  dsimp only
  split
  · exact .of_link rfl
  · exact (quiet_postRecorder ..).from_link rfl

theorem quiet_catchUpAll (s : State) : Quiet s (catchUpAll s) := by
  have hmany : ∀ (l : List SlotId) s, Quiet s
      (l.foldl (fun u i => takeCompletions i (s.slot i).inbox.completions.length u) s) := by
    intro l s
    generalize hcount : (fun i => (s.slot i).inbox.completions.length) = count
    have hcounts : ∀ i, (s.slot i).inbox.completions.length = count i := fun i => congrFun hcount i
    simp only [hcounts]
    clear hcount hcounts
    induction l generalizing s with
    | nil => exact Quiet.refl s
    | cons i l ih => exact (quiet_takeCompletions i (count i) s).trans (ih _)
  exact hmany _ s

/-- The warm restart clears the port and keeps its counts (10 R195). -/
theorem ordered_performRestart {s : State} (h : s.link.ordered) : (performRestart s).link.ordered := by
  have hcleared : (clearPort (catchUpAll s)).link.ordered := by
    obtain ⟨-, -, -, -, -, hcounts⟩ := (quiet_catchUpAll s).ordered h
    exact ⟨Nat.zero_le _, List.nodup_nil, trivial, trivial, fun h => (nomatch h), hcounts⟩
  exact ((quiet_restartSlots _ _).trans (quiet_restartRecorder _)).ordered hcleared

/-- A reply leaves the queue that is not the last of the restart wait. -/
theorem ordered_replySent {s : State} {bytes : List Byte} (htx : s.link.tx = some (.reply bytes))
    (hlast : s.sendingRestartReply = false) (h : s.link.ordered) :
    ({ s with link := { s.link with tx := none, replies := s.link.replies.tail } } : State).link.ordered := by
  obtain ⟨hfour, hnodup, holdest, hr, hwait, hcounts⟩ := h
  refine ⟨?_, hnodup, trivial, hr, fun hw htail => ?_, hcounts⟩
  · show s.link.replies.tail.length ≤ 4
    rw [List.length_tail]
    omega
  · have hone : s.link.replies.length = 1 := by
      have hne := List.length_pos_iff.2 (hwait hw)
      have hnone := congrArg List.length htail
      simp only [List.length_tail, List.length_nil] at hnone
      omega
    simp [State.sendingRestartReply, show s.link.restartWait = true from hw, hone, htx] at hlast

theorem portSound_endSending {s : State} (h : s.portSound) : (endSending s).portSound := by
  unfold endSending
  split
  · next bytes htx =>
    split
    · exact portSound_transmit (ordered_performRestart h.1)
    · next hlast => exact portSound_transmit (ordered_replySent htx (by simpa using hlast) h.1)
  · obtain ⟨hfour, hnodup, -, hrest⟩ := h.1
    exact portSound_transmit ⟨hfour, hnodup, trivial, hrest⟩
  · exact h

theorem portSound_restartSent {s : State} (h : s.portSound) : (restartSent s).portSound := by
  unfold restartSent
  split
  · exact portSound_transmit (ordered_performRestart h.1)
  · exact h

/-! ### Every event -/

theorem portSound_event {f : State → State} (hf : Event f) {s : State} (h : s.portSound) : (f s).portSound := by
  cases hf with
  | host kind tag hact => exact portSound_takeCommand hact h
  | restartSent => exact portSound_restartSent h
  | endFrame b => exact portSound_endFrame b h
  | takeByte b => exact portSound_takeByte b h
  | abortGap => exact portSound_abortGap h
  | endSending => exact portSound_endSending h
  | transmit => exact portSound_transmit h.1
  | expireDebounce i contact => exact (serves_expireDebounce i contact s).portSound h
  | expireCooldown i => exact (serves_expireCooldown i s).portSound h
  | expireSettle i => exact (serves_expireSettle i s).portSound h
  | completeJob how => exact (serves_completeJob how s).portSound h
  | timeOutByte late => exact (serves_timeOutByte late s).portSound h
  | takeNextCompletion i => exact (serves_takeNextCompletion i s).portSound h
  | expireConsent i => exact (serves_expireConsent i s).portSound h
  | sampleFrame sample => exact (serves_sampleFrame sample s).portSound h
  | takeNextFrame i => exact (serves_takeNextFrame i s).portSound h
  | expireRamp i => exact (serves_expireRamp i s).portSound h
  | expireResetHold i => exact (serves_expireResetHold i s).portSound h
  | expirePoll i => exact (serves_expirePoll i s).portSound h
  | expireReady i => exact (serves_expireReady i s).portSound h
  | takeNextAnnouncement i => exact (serves_takeNextAnnouncement i s).portSound h
  | beginMark =>
    refine (Serves.of_link ?_).portSound h
    unfold beginMark
    split <;> rfl
  | endMark =>
    refine (Serves.of_link ?_).portSound h
    unfold endMark
    split
    · exact startCycle_link s
    · rfl
  | endPulse width sinceStart => exact (serves_endPulse width sinceStart s).portSound h
  | longPulse => exact (serves_longPulse s).portSound h
  | loseMark => exact (serves_loseMark s).portSound h
  | takeAdoption i => exact (serves_takeAdoption i s).portSound h
  | startWindow => exact (serves_startWindow s).portSound h
  | endPart | strobeTick | traceIn | endTracePulse => exact (Serves.of_link rfl).portSound h
  | reachGap =>
    refine (Serves.of_link ?_).portSound h
    unfold reachGap
    split <;> rfl
  | takeNextOutcome i => exact (serves_takeNextOutcome i s).portSound h
  | recorderFrame => exact (serves_recorderFrame s).portSound h
  | arriveTrigger t =>
    refine (Serves.of_link ?_).portSound h
    unfold arriveTrigger
    split <;> rfl
  | arriveReport i =>
    refine (Serves.of_link ?_).portSound h
    unfold arriveReport
    split <;> rfl
  | expireTail =>
    refine (Serves.of_link ?_).portSound h
    unfold expireTail
    split <;> rfl

/-- Settles O4: the events keep the port in order, and the resets clear what they cut. -/
theorem stepKeepsLinkSound : Obligations.StepKeepsLinkSound := by
  have live : ∀ {s t : State}, t.portSound → t.linkSound := fun h => (linkSound_iff _).2 ⟨h.1, fun _ => h.2⟩
  have port : ∀ {s : State}, s.inReset = false → s.linkSound → s.portSound := by
    intro s hlive hs
    obtain ⟨ho, hsettled⟩ := (linkSound_iff s).1 hs
    exact ⟨ho, hsettled hlive⟩
  refine step_keeps (P := State.linkSound) (fun s q h => h) (fun f hf s hlive h => ?event)
    (fun rateHigh s _ => linkSound_endReset rateHigh s) (fun s h => ?reset) (fun i contact made s _ h => h)
    (fun i contact made s hlive _ h => ?change)
  case event => exact live (s := s) (portSound_event hf (port hlive h))
  case change =>
    exact live (s := s) (((serves_catchUpIf _ i s).trans (serves_changeContact i contact made _)).portSound (port hlive h))
  case reset =>
    obtain ⟨⟨hfour, hnodup, -, -, hrest⟩, -⟩ := (linkSound_iff s).1 h
    exact (linkSound_iff _).2 ⟨⟨hfour, hnodup, trivial, trivial, hrest⟩, fun hlive => (nomatch hlive)⟩

end Sys2Proof.Machine
end

section
/-!
PROOF. The fault recorder's ring (09 R162 to R180): every operation of the recorder keeps it.
-/
namespace Sys2Proof.Machine

/-! ### The ring's arithmetic -/

/-- The segments and their frames fill the trace memory in every memory mode (09 R162). -/
theorem segments_frames {mode : Nat} (h : mode ≤ 5) : segmentsOf mode * framesOf mode = Config.traceFrames :=
  (by decide : ∀ mode < 6, segmentsOf mode * framesOf mode = Config.traceFrames) mode (Nat.lt_succ_of_le h)

theorem framesOf_pos (mode : Nat) : 0 < framesOf mode := Nat.mul_pos (by decide) (Nat.two_pow_pos mode)

theorem ring_next {w S : Nat} (hw : w < S) : w + 1 = S ∧ (w + 1) % S = 0 ∨ w + 1 < S ∧ (w + 1) % S = w + 1 := by
  by_cases h : w + 1 = S
  · exact .inl ⟨h, by rw [h, Nat.mod_self]⟩
  · exact .inr ⟨by omega, Nat.mod_eq_of_lt (by omega)⟩

theorem ring_distance {w r S : Nat} (hw : w < S) (hr : r < S) :
    (w + S - r) % S = if r ≤ w then w - r else w + S - r := by
  split
  · next h =>
    rw [show w + S - r = w - r + S by omega, Nat.add_mod_right]
    exact Nat.mod_eq_of_lt (by omega)
  · exact Nat.mod_eq_of_lt (by omega)

/-- The frozen segments of a ring of S segments, written at w and read at r. -/
def ringFrozen (S w r : Nat) (lastWrite : Bool) : Nat :=
  if w = r then (if lastWrite then S else 0) else (w + S - r) % S

theorem frozen_eq (c : Recorder) : c.frozen = ringFrozen c.segments c.w c.r c.lastWrite := rfl

/-- One segment more is frozen while there is room (09 R174). -/
theorem ringFrozen_push {S w r : Nat} {lastWrite : Bool} (hw : w < S) (hr : r < S)
    (hroom : ringFrozen S w r lastWrite < S) : ringFrozen S ((w + 1) % S) r true = ringFrozen S w r lastWrite + 1 := by
  unfold ringFrozen at *
  rw [ring_distance hw hr] at *
  rcases ring_next hw with ⟨hend, hnext⟩ | ⟨hinside, hnext⟩
  · rw [hnext, ring_distance (w := 0) (by omega) hr]
    simp only [if_true]
    cases lastWrite <;> (repeat' split at hroom) <;> (repeat' split) <;> omega
  · rw [hnext, ring_distance hinside hr]
    simp only [if_true]
    cases lastWrite <;> (repeat' split at hroom) <;> (repeat' split) <;> omega

/-- One segment less is frozen after a release (09 R180). -/
theorem ringFrozen_release {S w r n : Nat} {lastWrite : Bool} (hw : w < S) (hr : r < S)
    (hsome : ringFrozen S w r lastWrite = n + 1) : ringFrozen S w ((r + 1) % S) false = n := by
  unfold ringFrozen at *
  rw [ring_distance hw hr] at hsome
  rcases ring_next hr with ⟨hend, hnext⟩ | ⟨hinside, hnext⟩
  · rw [hnext, ring_distance (r := 0) hw (by omega)]
    simp only [Bool.false_eq_true, if_false]
    cases lastWrite <;> (repeat' split at hsome) <;> (repeat' split) <;> omega
  · rw [hnext, ring_distance hw hinside]
    simp only [Bool.false_eq_true, if_false]
    cases lastWrite <;> (repeat' split at hsome) <;> (repeat' split) <;> omega

/-! ### Operations that leave the ring -/

/-- What `Recorder.sound` reads but for the state and the refused count. -/
def Recorder.ring (c : Recorder) :=
  ((c.settings, c.w, c.r, c.lastWrite, c.events), (c.writePos, c.written, c.sequence, c.memory),
    (c.gateOpen, c.gateCount, c.gateTail))

/-- A recorder that keeps its ring is sound in a state that writes as much. -/
theorem Recorder.sound.of_ring {c u : Recorder} (h : c.sound) (hring : u.ring = c.ring) (hrefused : u.refused ≤ 255)
    (hstate : u.state = c.state ∨ c.state.writing = true ∧ u.state.writing = true) : u.sound := by
  simp only [Recorder.ring, Prod.mk.injEq] at hring
  obtain ⟨⟨hsettings, hw, hr, hlast, hevents⟩, ⟨hpos, hwritten, hsequence, hmemory⟩, hopen, hcount, htail⟩ := hring
  obtain ⟨hrange, hwIn, hrIn, hfrozen, hroom, hfull, hposIn, hwrittenIn, hstopped, -, hsequenceIn, hmem, hplaces, hgate,
    htailOnly⟩ := h
  have hsegments : u.segments = c.segments := by rw [Recorder.segments, Recorder.segments, hsettings]
  have hframes : u.frameCount = c.frameCount := by rw [Recorder.frameCount, Recorder.frameCount, hsettings]
  have hfrozenEq : u.frozen = c.frozen := by rw [frozen_eq, frozen_eq, hsegments, hw, hr, hlast]
  unfold Recorder.sound
  rw [hsettings, hsegments, hframes, hfrozenEq, hw, hr, hevents, hpos, hwritten, hsequence, hmemory, hopen, hcount, htail]
  have hstates : (u.state.writing = true → c.state.writing = true) ∧ (u.state = .full → c.state = .full) ∧
      (u.state = .stopped → c.state = .stopped) := by
    rcases hstate with heq | ⟨hwriting, hstill⟩
    · rw [heq]; exact ⟨id, id, id⟩
    · exact ⟨fun _ => hwriting, fun h => by simp [h, RecState.writing] at hstill,
        fun h => by simp [h, RecState.writing] at hstill⟩
  obtain ⟨hwritingOf, hfullOf, hstoppedOf⟩ := hstates
  exact ⟨hrange, hwIn, hrIn, hfrozen, fun h => hroom (hwritingOf h), fun h => hfull (hfullOf h), hposIn, hwrittenIn,
    fun h => hstopped (hstoppedOf h), hrefused, hsequenceIn, hmem, hplaces, hgate, htailOnly⟩

theorem Recorder.sound.refused_le {c : Recorder} (h : c.sound) : c.refused ≤ 255 := by
  obtain ⟨-, -, -, -, -, -, -, -, -, hrefused, -⟩ := h
  exact hrefused

theorem sound_pulse {c : Recorder} (h : c.sound) : c.pulse.sound := by
  unfold Recorder.pulse
  split
  · exact h.of_ring rfl h.refused_le (.inl rfl)
  · exact h

theorem sound_startCapture {c : Recorder} (t : Trigger) (h : c.sound) (hst : c.state.writing = true) :
    (c.startCapture t).sound := h.of_ring rfl h.refused_le (.inr ⟨hst, rfl⟩)

/-- A trigger leaves the ring (09 R168, R169). -/
theorem sound_takeTrigger {c : Recorder} (t : Trigger) (h : c.sound) : (c.takeTrigger t).1.sound := by
  unfold Recorder.takeTrigger
  split
  · unfold Recorder.takeEnabled
    split
    · exact h
    · exact h.of_ring rfl (saturate_le h.refused_le) (.inl rfl)
    · exact h.of_ring rfl (saturate_le h.refused_le) (.inl rfl)
    · next hst => exact sound_pulse (sound_startCapture t h (by rw [hst]; rfl))
    · split
      · split
        · exact h
        · split
          · exact h
          · exact h.of_ring rfl h.refused_le (.inl rfl)
      · split
        · exact h
        · exact sound_pulse (h.of_ring rfl h.refused_le (.inl rfl))
  · exact h

/-! ### Frames -/

/-- A frame stored stays inside segment W, which lies inside the trace memory (09 R162). -/
theorem sound_store {c : Recorder} (f : MonitorSample) (h : c.sound) (hst : c.state.writing = true) :
    (c.store f).sound := by
  obtain ⟨hrange, hwIn, hrIn, hfrozen, hroom, hfull, hposIn, hwrittenIn, hstopped, hrefused, hsequenceIn, hmem, hplaces,
    hgate, htailOnly⟩ := h
  have hmode : c.settings.mode ≤ 5 := by simp [RecSettings.inRange] at hrange; omega
  have hplace : c.w * c.frameCount + c.writePos < Config.traceFrames := by
    calc c.w * c.frameCount + c.writePos < c.w * c.frameCount + c.frameCount := by omega
      _ = (c.w + 1) * c.frameCount := by rw [Nat.add_mul, Nat.one_mul]
      _ ≤ c.segments * c.frameCount := Nat.mul_le_mul_right _ hwIn
      _ = Config.traceFrames := segments_frames hmode
  refine ⟨hrange, hwIn, hrIn, hfrozen, hroom, hfull, Nat.mod_lt _ (framesOf_pos _), Nat.min_le_left .., fun hs => ?_,
    hrefused, hsequenceIn, wf_writePlace hmem _ _, fun p hp => ?_, hgate, htailOnly⟩
  · rw [show c.state = .stopped from hs] at hst
    cases hst
  · rcases mem_writePlace hp with hnew | hold
    · rw [hnew]; exact hplace
    · exact hplaces p hold

theorem sound_beginFilling {c : Recorder} (h : c.sound) (hroom : c.frozen < c.segments) : c.beginFilling.sound := by
  obtain ⟨hrange, hwIn, hrIn, hfrozen, -, -, -, -, -, hrefused, hsequenceIn, hmem, hplaces, hgate, htailOnly⟩ := h
  refine ⟨hrange, hwIn, hrIn, hfrozen, fun _ => hroom, fun hf => ?_, framesOf_pos _, Nat.zero_le _, fun _ => ⟨rfl, rfl⟩,
    hrefused, hsequenceIn, hmem, hplaces, hgate, htailOnly⟩
  unfold Recorder.beginFilling at hf
  dsimp only at hf
  split at hf <;> cases hf

theorem writing_beginFilling (c : Recorder) : c.beginFilling.state.writing = true := by
  unfold Recorder.beginFilling
  dsimp only
  split <;> rfl

/-! ### Captures (09 R171 to R175) -/

theorem sound_enterOverlap {c : Recorder} (h : c.sound) : c.enterOverlap.sound := by
  unfold Recorder.enterOverlap
  split
  · exact sound_pulse (h.of_ring rfl h.refused_le (.inl rfl))
  · exact h

theorem state_enterOverlap (c : Recorder) : c.enterOverlap.state = c.state := by
  unfold Recorder.enterOverlap
  split
  · unfold Recorder.pulse
    split <;> rfl
  · rfl

/-- The ring with segment W frozen: its record queued and the next segment written (09 R174). -/
theorem frozen_kept {c : Recorder} (k : Capture) (h : c.sound) (hst : c.state.writing = true) :
    ringFrozen c.segments ((c.w + 1) % c.segments) c.r true = (c.events ++ [c.recordOf k]).length := by
  obtain ⟨-, hwIn, hrIn, hfrozen, hroom, -⟩ := h
  rw [ringFrozen_push (lastWrite := c.lastWrite) hwIn hrIn (hroom hst), List.length_append, List.length_singleton,
    hfrozen]
  rfl

theorem sound_keepSegment {c : Recorder} (k : Capture) (h : c.sound) (hst : c.state.writing = true) :
    (c.keepSegment k).1.sound := by
  have hkept := frozen_kept k h hst
  obtain ⟨hrange, hwIn, hrIn, hfrozen, hroom, -, hposIn, hwrittenIn, hstopped, -, hsequenceIn, hmem, hplaces, hgate,
    htailOnly⟩ := h
  have hnext : (c.w + 1) % c.segments < c.segments := Nat.mod_lt _ (by omega)
  have hsequence : (c.sequence + 1) % 65536 < 65536 := Nat.mod_lt _ (by omega)
  have hfree : (c.w + 1) % c.segments ≠ c.r → ringFrozen c.segments ((c.w + 1) % c.segments) c.r true < c.segments := by
    intro hne
    rw [ringFrozen, if_neg hne]
    exact Nat.mod_lt _ (by omega)
  have hnotFull : c.state ≠ .full := fun hf => by rw [hf] at hst; cases hst
  have hkeptSound : (c.w + 1) % c.segments ≠ c.r → ({ c with
      events := c.events ++ [c.recordOf k], sequence := (c.sequence + 1) % 65536, refused := 0,
      w := (c.w + 1) % c.segments, lastWrite := true } : Recorder).sound := fun hne =>
    ⟨hrange, hnext, hrIn, hkept.symm, fun _ => hfree hne, fun hf => absurd hf hnotFull,
      hposIn, hwrittenIn, hstopped, Nat.zero_le _, hsequence, hmem, hplaces, hgate, htailOnly⟩
  unfold Recorder.keepSegment
  dsimp only
  split
  · next heq =>
    have hmissed : (if c.overlap.isSome then 1 else 0) ≤ 255 := by split <;> omega
    exact ⟨hrange, hnext, hrIn, hkept.symm, fun hw => (nomatch hw), fun _ => (if_pos heq).trans (if_pos rfl), hposIn,
      hwrittenIn, fun hs => (nomatch hs), hmissed, hsequence, hmem, hplaces, hgate, htailOnly⟩
  · next hne =>
    have hfilling := sound_beginFilling (hkeptSound hne) (hfree hne)
    split
    · exact hfilling.of_ring rfl (Nat.zero_le _) (.inr ⟨writing_beginFilling _, rfl⟩)
    · exact hfilling

theorem sound_discardSegment {c : Recorder} (h : c.sound) (hst : c.state.writing = true) : c.discardSegment.1.sound := by
  have hready : ({ c with state := .ready, pattern := 0, overlap := none } : Recorder).sound :=
    h.of_ring rfl h.refused_le (.inr ⟨hst, rfl⟩)
  unfold Recorder.discardSegment
  dsimp only
  split
  · split
    · exact hready
    · exact sound_startCapture _ hready rfl
  · exact hready

theorem sound_freeze {c : Recorder} (k : Capture) (h : c.sound) (hst : c.state.writing = true) : (c.freeze k).1.sound := by
  unfold Recorder.freeze
  split
  · exact sound_keepSegment k h hst
  · exact sound_discardSegment h hst

theorem sound_captureStored {c : Recorder} (k : Capture) (h : c.sound) (hst : c.state.writing = true) :
    (c.captureStored k).1.sound := by
  have hcounted : ({ c with state := .capturing { k with remaining := k.remaining - 1 } } : Recorder).sound :=
    h.of_ring rfl h.refused_le (.inr ⟨hst, rfl⟩)
  unfold Recorder.captureStored
  dsimp only
  have hphased : ∀ {p : Prop} [Decidable p] {u : Recorder}, u.sound → u.state.writing = true →
      (if p then u.enterOverlap else u).sound ∧ (if p then u.enterOverlap else u).state.writing = true := by
    intro p _ u hu hw
    split
    · exact ⟨sound_enterOverlap hu, by rw [state_enterOverlap]; exact hw⟩
    · exact ⟨hu, hw⟩
  obtain ⟨hsound, hwriting⟩ := hphased (p := k.remaining - 1 = c.settings.overlap) hcounted rfl
  split
  · exact sound_freeze _ hsound hwriting
  · exact hsound

/-- Every monitor frame keeps the ring. -/
theorem sound_takeFrame {c : Recorder} (f : MonitorFrame) (cycle : Long) (h : c.sound) : (c.takeFrame f cycle).1.sound := by
  have hpassed : c.passOver.1.sound := h.of_ring rfl h.refused_le (.inl rfl)
  unfold Recorder.takeFrame
  split
  · exact h
  · exact h
  · next hst =>
    have hstored := sound_store f.sample h (by rw [hst]; rfl)
    split
    · exact hpassed
    · dsimp only
      split
      · exact hstored.of_ring rfl hstored.refused_le (.inr ⟨by rw [show (c.store f.sample).state = c.state from rfl, hst]; rfl, rfl⟩)
      · exact hstored
  · next hst =>
    split
    · exact hpassed
    · exact sound_store f.sample h (by rw [hst]; rfl)
  · next k hst =>
    have hwriting : c.state.writing = true := by rw [hst]; rfl
    split
    · exact sound_captureStored _ (sound_store f.sample h hwriting) hwriting
    · split
      · exact hpassed
      · exact sound_captureStored _ (sound_store f.sample h hwriting) hwriting

/-! ### The gate (09 R170) -/

/-- A recorder that keeps all but the gate, which stays open exactly while it counts or its tail runs. -/
theorem Recorder.sound.of_gate {c : Recorder} (h : c.sound) {opened : Bool} {count : Nat} {tail : Option Nat}
    (hgate : opened = true ↔ count ≠ 0 ∨ tail.isSome) (htail : tail.isSome → count = 0) :
    ({ c with gateOpen := opened, gateCount := count, gateTail := tail } : Recorder).sound := by
  obtain ⟨hrange, hwIn, hrIn, hfrozen, hroom, hfull, hposIn, hwrittenIn, hstopped, hrefused, hsequenceIn, hmem, hplaces,
    -, -⟩ := h
  exact ⟨hrange, hwIn, hrIn, hfrozen, hroom, hfull, hposIn, hwrittenIn, hstopped, hrefused, hsequenceIn, hmem, hplaces,
    hgate, htail⟩

theorem Recorder.sound.gate {c : Recorder} (h : c.sound) :
    (c.gateOpen = true ↔ c.gateCount ≠ 0 ∨ c.gateTail.isSome) ∧ (c.gateTail.isSome → c.gateCount = 0) := by
  obtain ⟨-, -, -, -, -, -, -, -, -, -, -, -, -, hgate, htailOnly⟩ := h
  exact ⟨hgate, htailOnly⟩

theorem sound_takeReport {c : Recorder} (entering : Bool) (h : c.sound) : (c.takeReport entering).sound := by
  obtain ⟨hgate, htailOnly⟩ := h.gate
  unfold Recorder.takeReport
  split
  · split
    · exact h.of_gate (by simp) (by simp)
    · next hcount =>
      refine h.of_gate (by simp [hgate, hcount]) fun htail => absurd (htailOnly htail) hcount
  · split
    · split
      · next hcount _ =>
        have hnone : c.gateTail = none := by
          cases htail : c.gateTail with
          | none => rfl
          | some k => exact absurd (htailOnly (by rw [htail]; rfl)) (by omega)
        exact h.of_gate (by simp [hnone]) (fun _ => rfl)
      · next hcount _ => exact h.of_gate (by simp [hgate, hcount]) (fun _ => rfl)
    · next hcount =>
      have hstays : c.gateCount - 1 ≠ 0 ↔ c.gateCount ≠ 0 := by omega
      exact h.of_gate (by rw [hstays]; exact hgate) fun htail => by rw [htailOnly htail]

theorem sound_endTail {c : Recorder} (h : c.sound) (htail : c.gateTail.isSome) :
    ({ c with gateTail := none, gateOpen := false } : Recorder).sound :=
  h.of_gate (by simp [h.gate.2 htail]) (by simp)

/-! ### The host's commands (09 R164 to R166, R180) and the warm restart -/

theorem sound_clearRing {c : Recorder} (settings : RecSettings) (h : c.sound) (hrange : settings.inRange = true)
    (hst : c.state = .stopped) : ({ c.clearRing with settings := settings } : Recorder).sound := by
  obtain ⟨-, -, -, -, -, -, -, -, hstopped, -, hsequenceIn, -, -, hgate, htailOnly⟩ := h
  obtain ⟨hpos, hwritten⟩ := hstopped hst
  have hsegments : 0 < segmentsOf settings.mode := by
    have hmode : settings.mode ≤ 5 := by simp [RecSettings.inRange] at hrange; omega
    have hprod := segments_frames hmode
    exact Nat.pos_of_ne_zero fun hzero => by rw [hzero, Nat.zero_mul] at hprod; cases hprod
  refine ⟨hrange, hsegments, hsegments, rfl, fun hw => ?_, fun hf => ?_, ?_, ?_, fun _ => ⟨hpos, hwritten⟩, Nat.zero_le _,
    hsequenceIn, rfl, fun p hp => absurd hp List.not_mem_nil, hgate, htailOnly⟩
  · have hwriting : c.state.writing = true := hw
    rw [hst] at hwriting
    cases hwriting
  · exact absurd (hst.symm.trans (show c.state = .full from hf)) (by decide)
  · show c.writePos < framesOf settings.mode
    rw [hpos]; exact framesOf_pos _
  · show c.written ≤ framesOf settings.mode
    rw [hwritten]; exact Nat.zero_le _

theorem sound_stop {c : Recorder} (h : c.sound) : c.stop.sound := by
  obtain ⟨hrange, hwIn, hrIn, hfrozen, -, -, -, -, -, hrefused, hsequenceIn, hmem, hplaces, hgate, htailOnly⟩ := h
  exact ⟨hrange, hwIn, hrIn, hfrozen, fun hw => (nomatch hw), fun hf => (nomatch hf), framesOf_pos _, Nat.zero_le _,
    fun _ => ⟨rfl, rfl⟩, hrefused, hsequenceIn, hmem, hplaces, hgate, htailOnly⟩

/-- The warm restart stops the recorder and clears its ring (09 R183). -/
theorem sound_restart {c : Recorder} (h : c.sound) : c.restart.sound := by
  have hcleared := sound_clearRing c.settings (sound_stop h) h.1 rfl
  obtain ⟨hrange, hwIn, hrIn, hfrozen, hroom, hfull, hposIn, hwrittenIn, hstopped, hrefused, -, hrest⟩ := hcleared
  exact ⟨hrange, hwIn, hrIn, hfrozen, hroom, hfull, hposIn, hwrittenIn, hstopped, hrefused, Nat.zero_lt_succ _, hrest⟩

theorem sound_arm {c : Recorder} (h : c.sound) : c.arm.sound := by
  unfold Recorder.arm
  split
  · next hall =>
    obtain ⟨hrange, hwIn, hrIn, hfrozen, -, -, hposIn, hwrittenIn, -, hrest⟩ := h
    exact ⟨hrange, hwIn, hrIn, hfrozen, fun hw => (nomatch hw), fun _ => (if_pos hall.1).trans (if_pos hall.2), hposIn,
      hwrittenIn, fun hs => (nomatch hs), hrest⟩
  · next hsome =>
    have hroom : c.frozen < c.segments := by
      obtain ⟨-, hwIn, hrIn, -⟩ := h
      unfold Recorder.frozen
      split
      · next heq => rw [if_neg fun hlast => hsome ⟨heq, hlast⟩]; omega
      · exact Nat.mod_lt _ (by omega)
    have hfilling := sound_beginFilling h hroom
    exact hfilling.of_ring rfl hfilling.refused_le (.inl rfl)

theorem sound_release {c : Recorder} {e : EventRecord} {rest : List EventRecord} (h : c.sound)
    (hevents : c.events = e :: rest) : (c.release rest).sound := by
  obtain ⟨hrange, hwIn, hrIn, hfrozen, hroom, hfull, hposIn, hwrittenIn, hstopped, hrefused, hsequenceIn, hmem, hplaces,
    hgate, htailOnly⟩ := h
  have hnext : (c.r + 1) % c.segments < c.segments := Nat.mod_lt _ (by omega)
  have hsome : ringFrozen c.segments c.w c.r c.lastWrite = rest.length + 1 := by
    rw [← frozen_eq, ← hfrozen, hevents, List.length_cons]
  have hfreed := ringFrozen_release hwIn hrIn hsome
  have hless : ringFrozen c.segments c.w ((c.r + 1) % c.segments) false < c.segments := by
    unfold ringFrozen
    split
    · rw [if_neg Bool.false_ne_true]; omega
    · exact Nat.mod_lt _ (by omega)
  unfold Recorder.release
  dsimp only
  split
  · have hstoppedSound : ({ c with
        state := .stopped, writePos := 0, written := 0, events := rest, r := (c.r + 1) % c.segments,
        lastWrite := false } : Recorder).sound :=
      ⟨hrange, hwIn, hnext, hfreed.symm, fun _ => hless, fun hf => (nomatch hf), framesOf_pos _, Nat.zero_le _,
        fun _ => ⟨rfl, rfl⟩, hrefused, hsequenceIn, hmem, hplaces, hgate, htailOnly⟩
    have hfilling := sound_beginFilling hstoppedSound hless
    exact hfilling.of_ring rfl hrefused (.inl rfl)
  · next hnot =>
    exact ⟨hrange, hwIn, hnext, hfreed.symm, fun _ => hless, fun hf => absurd hf hnot, hposIn, hwrittenIn, hstopped,
      hrefused, hsequenceIn, hmem, hplaces, hgate, htailOnly⟩

end Sys2Proof.Machine
end

section
/-!
PROOF. Every step keeps the recorder's ring (09 R163 to R176): the slots' events reach its gate reports alone, and its own
events and commands keep it.
-/
namespace Sys2Proof.Machine

/-- An event that keeps the recorder sound. -/
structure RingKept (s t : State) : Prop where
  keeps : s.recorder.sound → t.recorder.sound

theorem RingKept.refl (s : State) : RingKept s s := ⟨id⟩

theorem RingKept.trans {a b c : State} (h1 : RingKept a b) (h2 : RingKept b c) : RingKept a c :=
  ⟨fun h => h2.keeps (h1.keeps h)⟩

theorem RingKept.of_recorder {s t : State} (h : t.recorder = s.recorder) : RingKept s t := ⟨by rw [h]; exact id⟩

theorem RingKept.from_recorder {s u t : State} (h : RingKept u t) (hr : u.recorder = s.recorder) : RingKept s t :=
  (RingKept.of_recorder hr).trans h

/-- The recorder is written, and what is written of it is no part of its ring. -/
theorem RingKept.of_ring {s t : State} (hring : t.recorder.ring = s.recorder.ring)
    (hrefused : t.recorder.refused = s.recorder.refused) (hstate : t.recorder.state = s.recorder.state) : RingKept s t :=
  ⟨fun hs => hs.of_ring hring (Nat.le_trans (Nat.le_of_eq hrefused) hs.refused_le) (.inl hstate)⟩

/-- An event of one slot sends gate reports alone. -/
theorem SlotFrame.ringKept {i : SlotId} {s t : State} (h : SlotFrame i s t) : RingKept s t := by
  have hring := congrArg Recorder.ring h.recorder
  have hrefused := congrArg Recorder.refused h.recorder
  have hstate := congrArg Recorder.state h.recorder
  exact .of_ring hring hrefused hstate

theorem ringKept_updSlot (i : SlotId) (f : Slot → Slot) (s : State) : RingKept s (s.updSlot i f) := .of_recorder rfl

theorem ringKept_transmit (s : State) : RingKept s (transmit s) := .of_recorder (transmit_recorder s)

/-- An event of one slot, and the transmitter's choice. -/
theorem SlotFrame.sent {i : SlotId} {s t : State} (h : SlotFrame i s t) : RingKept s (Machine.transmit t) :=
  h.ringKept.trans (ringKept_transmit t)

/-! ### The slots -/

theorem ringKept_takeNextCompletion (i : SlotId) (s : State) : RingKept s (takeNextCompletion i s) := by
  unfold takeNextCompletion
  split
  · exact ((slotFrame_updSlot ..).trans (slotFrame_takeCompletion ..)).sent
  · exact RingKept.refl s

theorem ringKept_takeCompletions (i : SlotId) (n : Nat) : ∀ s : State, RingKept s (takeCompletions i n s) := by
  induction n with
  | zero => exact fun s => RingKept.refl s
  | succ n ih => exact fun s => (ringKept_takeNextCompletion i s).trans (ih _)

theorem ringKept_catchUpIf (withdraws : Bool) (i : SlotId) (s : State) : RingKept s (catchUpIf withdraws i s) := by
  unfold catchUpIf
  split
  · exact ringKept_takeCompletions ..
  · exact RingKept.refl s

theorem ringKept_changeContact (i : SlotId) (contact : Contact) (made : Bool) (s : State) :
    RingKept s (changeContact i contact made s) := by
  unfold changeContact
  dsimp only
  split
  · exact ((slotFrame_updSlot ..).trans (slotFrame_removeCard ..)).sent
  · exact .of_recorder rfl

theorem ringKept_actOnContact (i : SlotId) (contact : Contact) (made : Bool) (s : State) :
    RingKept s (actOnContact i contact made s) := by
  unfold actOnContact
  split
  · split
    · exact ((slotFrame_transition ..).trans (slotFrame_toIdentifying ..)).ringKept
    · exact (slotFrame_transition ..).ringKept
  · exact (slotFrame_toIdentifying ..).ringKept
  · exact (slotFrame_transition ..).ringKept
  · exact ((slotFrame_updSlot ..).trans (slotFrame_transition ..)).ringKept
  · exact (slotFrame_toIdentifying ..).ringKept
  case h_11 => exact ((slotFrame_updSlot ..).trans (slotFrame_powerOff ..)).ringKept
  case h_12 => exact (slotFrame_removeCard ..).ringKept
  all_goals exact RingKept.refl s

theorem ringKept_expireDebounce (i : SlotId) (contact : Contact) (s : State) :
    RingKept s (expireDebounce i contact s) := by
  unfold expireDebounce
  split
  · exact (ringKept_catchUpIf _ i s).trans ((ringKept_updSlot ..).trans ((ringKept_actOnContact ..).trans
      (ringKept_transmit _)))
  · exact RingKept.refl s

theorem ringKept_expireCooldown (i : SlotId) (s : State) : RingKept s (expireCooldown i s) := by
  unfold expireCooldown
  split
  · refine RingKept.trans ?_ (ringKept_transmit _)
    split
    · exact (slotFrame_toIdentifying ..).ringKept
    · exact (slotFrame_toPowerWait ..).ringKept
  · exact RingKept.refl s

theorem ringKept_expireConsent (i : SlotId) (s : State) : RingKept s (expireConsent i s) := by
  unfold expireConsent
  split
  · exact (slotFrame_transition ..).sent
  · exact RingKept.refl s

theorem ringKept_expireRamp (i : SlotId) (s : State) : RingKept s (expireRamp i s) := by
  unfold expireRamp
  split
  · exact (slotFrame_takeFault ..).sent
  · exact RingKept.refl s

theorem ringKept_expireResetHold (i : SlotId) (s : State) : RingKept s (expireResetHold i s) := by
  unfold expireResetHold
  split
  · exact (slotFrame_toReadyWait ..).sent
  · exact RingKept.refl s

theorem ringKept_expirePoll (i : SlotId) (s : State) : RingKept s (expirePoll i s) := by
  unfold expirePoll
  split
  · split
    · exact .of_recorder rfl
    · exact .of_recorder (pollStatus_recorder ..)
  · exact RingKept.refl s

theorem ringKept_expireReady (i : SlotId) (s : State) : RingKept s (expireReady i s) := by
  unfold expireReady
  split
  · exact (slotFrame_takeFault ..).sent
  · exact RingKept.refl s

theorem ringKept_expireSettle (i : SlotId) (s : State) : RingKept s (expireSettle i s) := by
  unfold expireSettle
  split
  · exact .of_recorder rfl
  · exact RingKept.refl s

/-- A condition presented to the recorder waits there (09 R168). -/
theorem ringKept_presentTrigger (t : Trigger) (s : State) : RingKept s (presentTrigger t s) :=
  .of_ring rfl rfl rfl

theorem ringKept_notePattern (above : Bool) (i : SlotId) (s : State) : RingKept s (notePattern above i s) := by
  unfold notePattern
  split
  · exact .of_ring rfl rfl rfl
  · exact RingKept.refl s

theorem ringKept_faultWithTrigger (i : SlotId) (code : Reason) (source : TriggerSource) (s : State) :
    RingKept s (faultWithTrigger i code source s) :=
  (slotFrame_takeFault i code s).ringKept.trans (ringKept_presentTrigger ..)

theorem ringKept_rampSuccess (i : SlotId) (s : State) : RingKept s (rampSuccess i s) := by
  rw [rampSuccess_eq]
  have hheld : RingKept s (rampHeld i s) := ((slotFrame_transition i .resetHold .none s).trans (slotFrame_updSlot ..)).ringKept
  exact hheld.trans ((slotFrame_examine i _).ringKept.from_recorder rfl)

/-- A frame's runs are counted, and then it is a fault, a success or neither. -/
theorem ringKept_counted {s u : State} (h : RingKept s u) {a b : Prop} [Decidable a] [Decidable b] {v w : State}
    (hv : RingKept u v) (hw : RingKept u w) :
    RingKept s (if a then transmit v else if b then transmit w else u) := by
  split
  · exact (h.trans hv).trans (ringKept_transmit v)
  · split
    · exact (h.trans hw).trans (ringKept_transmit w)
    · exact h

theorem ringKept_takeFrame (i : SlotId) (f : MonitorSample) (s : State) : RingKept s (takeFrame i f s) := by
  unfold takeFrame
  split
  · exact ringKept_counted ((ringKept_updSlot i _ s).trans (ringKept_notePattern ..)) (ringKept_faultWithTrigger ..)
      (ringKept_rampSuccess ..)
  · split
    · exact ringKept_counted ((ringKept_updSlot i _ s).trans (ringKept_notePattern ..)) (ringKept_faultWithTrigger ..)
        (ringKept_faultWithTrigger ..)
    · exact RingKept.refl s

theorem ringKept_takeNextFrame (i : SlotId) (s : State) : RingKept s (takeNextFrame i s) := by
  unfold takeNextFrame
  split
  · exact (ringKept_catchUpIf (frameFaults i _ s) i s).trans ((ringKept_updSlot ..).trans (ringKept_takeFrame ..))
  · exact RingKept.refl s

theorem ringKept_takeNextAnnouncement (i : SlotId) (s : State) : RingKept s (takeNextAnnouncement i s) := by
  unfold takeNextAnnouncement
  split
  · unfold takeAnnouncement
    dsimp only
    split
    · exact ((slotFrame_updSlot ..).trans (slotFrame_examineSet ..)).sent
    · exact .of_recorder rfl
  · exact RingKept.refl s

theorem ringKept_takeAdoption (i : SlotId) (s : State) : RingKept s (takeAdoption i s) := by
  unfold takeAdoption
  dsimp only
  split
  · exact RingKept.refl s
  · split
    · exact ((slotFrame_updSlot ..).trans (slotFrame_transition ..)).sent
    · exact .of_recorder rfl

theorem ringKept_takeNextOutcome (i : SlotId) (s : State) : RingKept s (takeNextOutcome i s) := by
  unfold takeNextOutcome
  split
  · dsimp only
    split
    · unfold actOnOutcome
      dsimp only
      split
      · exact .of_recorder rfl
      · split
        · exact ((slotFrame_updSlot ..).trans ((slotFrame_updSlot ..).trans (slotFrame_takeFault ..))).sent
        · exact .of_recorder rfl
    · exact .of_recorder rfl
  · exact RingKept.refl s

/-! ### The engine, the monitor and the sequencer -/

theorem ringKept_completeJob (how : BusEnd) (s : State) : RingKept s (completeJob how s) := by
  refine .of_recorder ?_
  unfold completeJob
  dsimp only
  repeat' split
  all_goals first | rfl | exact endJob_recorder ..

theorem ringKept_timeOutByte (late : LateByte) (s : State) : RingKept s (timeOutByte late s) := by
  refine .of_recorder ?_
  unfold timeOutByte
  dsimp only
  repeat' split
  all_goals first | rfl | exact endJob_recorder ..

theorem ringKept_sampleFrame (f : MonitorSample) (s : State) : RingKept s (sampleFrame f s) := by
  have hhanded : ∀ g, RingKept s (handFrame g { s with monitor := { s.monitor with
      timeStamp := s.monitor.timeStamp + BitVec.ofNat 32 Config.framePeriod } }) := fun g => .of_ring rfl rfl rfl
  unfold sampleFrame
  dsimp only
  split
  · exact (hhanded _).trans (ringKept_presentTrigger ..)
  · exact hhanded _

theorem startCycle_recorder (s : State) : (startCycle s).recorder = s.recorder := by
  have hrest := congrArg State.recorder (startsCycle_startCycle s).1.rest
  exact hrest

theorem takeIllegal_recorder (s : State) : (takeIllegal s).recorder = s.recorder := by
  unfold takeIllegal
  rw [transmit_recorder]
  dsimp only [postCycle_recorder]
  split <;> rfl

theorem ringKept_endPulse (width sinceStart : Nat) (s : State) : RingKept s (endPulse width sinceStart s) := by
  refine .of_recorder ?_
  unfold endPulse
  split
  · rfl
  · split
    · rfl
    · split
      · rfl
      · split
        · exact takeIllegal_recorder s
        · split
          · unfold takeMark
            dsimp only
            split
            · rw [transmit_recorder, postCycle_recorder, startCycle_recorder]
            · rw [transmit_recorder, postCycle_recorder, startCycle_recorder]
            · split
              · rw [transmit_recorder, postCycle_recorder, startCycle_recorder]
              · split
                · exact startCycle_recorder s
                · rfl
            · rfl
            · rfl
          · rfl

theorem ringKept_longPulse (s : State) : RingKept s (longPulse s) := by
  refine .of_recorder ?_
  unfold longPulse
  split
  · rw [takeIllegal_recorder]
  · rfl

theorem ringKept_loseMark (s : State) : RingKept s (loseMark s) := by
  refine .of_recorder ?_
  unfold loseMark
  split
  · rw [transmit_recorder]
    rfl
  · rfl

theorem ringKept_startWindow (s : State) : RingKept s (startWindow s) := by
  refine .of_recorder ?_
  unfold startWindow
  repeat' split
  all_goals rfl

/-! ### The recorder's own events -/

theorem writeTraceRef_recorder (reference : Option (SlotId × Nat)) (s : State) :
    (writeTraceRef reference s).recorder = s.recorder := by
  cases reference <;> rfl

theorem noticeCause_recorder (cause : Option RecCause) (s : State) : (noticeCause cause s).recorder = s.recorder := by
  unfold noticeCause
  split
  · rw [transmit_recorder]
    rfl
  · rfl

theorem ringKept_recorderFrame (s : State) : RingKept s (recorderFrame s) := by
  refine ⟨fun hs => ?_⟩
  unfold recorderFrame
  split
  · next f rest _ =>
    rw [noticeCause_recorder, writeTraceRef_recorder]
    exact sound_takeFrame f _ (hs.of_ring (u := { s.recorder with frames := rest }) rfl hs.refused_le (.inl rfl))
  · exact hs

theorem ringKept_arriveTrigger (t : Trigger) (s : State) : RingKept s (arriveTrigger t s) := by
  refine ⟨fun hs => ?_⟩
  unfold arriveTrigger
  split
  · exact sound_takeTrigger t (hs.of_ring (u := { s.recorder with triggers := s.recorder.triggers.erase t }) rfl
      hs.refused_le (.inl rfl))
  · exact hs

theorem ringKept_arriveReport (i : SlotId) (s : State) : RingKept s (arriveReport i s) := by
  refine ⟨fun hs => ?_⟩
  unfold arriveReport
  split
  · next g _ =>
    exact sound_takeReport g.entering (hs.of_ring
      (u := { s.recorder with gateReports := s.recorder.gateReports.erase g }) rfl hs.refused_le (.inl rfl))
  · exact hs

theorem ringKept_expireTail (s : State) : RingKept s (expireTail s) := by
  refine ⟨fun hs => ?_⟩
  unfold expireTail
  split
  · exact sound_endTail hs ‹_›
  · exact hs

theorem ringKept_endTracePulse (s : State) : RingKept s (endTracePulse s) :=
  .of_ring rfl rfl rfl

/-! ### The host's commands -/

theorem ringKept_onSlot {slot : Byte} {act : SlotId → State → State × Answer} (h : ∀ i s, RingKept s (act i s).1)
    (s : State) : RingKept s (onSlot slot act s).1 := by
  unfold onSlot
  split
  · exact h ..
  · exact RingKept.refl s

theorem onSet_recorder {set : Byte} {act : Fin 8 → State → State × Answer} (h : ∀ n s, (act n s).1.recorder = s.recorder)
    (s : State) : (onSet set act s).1.recorder = s.recorder := by
  unfold onSet
  split
  · exact h ..
  · rfl

theorem ringKept_answerSlotConsent (slot decision : Byte) (s : State) :
    RingKept s (answerSlotConsent slot decision s).1 := by
  refine ringKept_onSlot (fun i s => ?_) s
  split
  · exact RingKept.refl s
  · split
    · exact RingKept.refl s
    · split
      · exact (slotFrame_admitCard ..).ringKept
      · exact (slotFrame_transition ..).ringKept

theorem ringKept_parkSlot (i : SlotId) (s : State) : RingKept s (parkSlot i s).1 := by
  unfold parkSlot
  split
  · exact (slotFrame_powerOff ..).ringKept
  · exact RingKept.refl s

theorem ringKept_answerSlotPark (slot : Byte) (s : State) : RingKept s (answerSlotPark slot s).1 :=
  ringKept_onSlot (fun i s => (ringKept_catchUpIf (s.slot i).state.parkable i s).trans (ringKept_parkSlot i _)) s

theorem ringKept_answerSlotResume (slot : Byte) (s : State) : RingKept s (answerSlotResume slot s).1 := by
  refine ringKept_onSlot (fun i s => ?_) s
  split
  · exact (slotFrame_toPowerWait ..).ringKept
  · exact RingKept.refl s

theorem ringKept_answerSlotRestart (slot : Byte) (s : State) : RingKept s (answerSlotRestart slot s).1 := by
  refine ringKept_onSlot (fun i s => ?_) s
  split
  case h_1 | h_2 | h_3 => exact ((slotFrame_updSlot ..).trans (slotFrame_toIdentifying ..)).ringKept
  all_goals exact RingKept.refl s

theorem ringKept_answerSlotDisable (slot : Byte) (s : State) : RingKept s (answerSlotDisable slot s).1 := by
  refine ringKept_onSlot (fun i s => ?_) s
  split
  · exact RingKept.refl s
  · exact (ringKept_takeCompletions i _ s).trans (slotFrame_powerOff ..).ringKept

theorem ringKept_answerSlotEnable (slot : Byte) (s : State) : RingKept s (answerSlotEnable slot s).1 := by
  refine ringKept_onSlot (fun i s => ?_) s
  split
  · exact ((slotFrame_updSlot ..).trans (slotFrame_toContactState ..)).ringKept
  · exact RingKept.refl s

theorem ringKept_answerSlotClearBar (slot : Byte) (s : State) : RingKept s (answerSlotClearBar slot s).1 := by
  refine ringKept_onSlot (fun i s => ?_) s
  split
  · exact RingKept.refl s
  · split
    · exact RingKept.refl s
    · exact ((slotFrame_updSlot ..).trans (slotFrame_toContactState ..)).ringKept

theorem answerParamBegin_recorder (set : Byte) (length : Word) (s : State) :
    (answerParamBegin set length s).1.recorder = s.recorder := by
  refine onSet_recorder (fun n s => ?_) s
  split
  · rfl
  · split <;> rfl

theorem loadWords_recorder (n : Fin 8) (words : List Word) (s : State) : (loadWords n words s).recorder = s.recorder := by
  unfold loadWords
  dsimp only
  split <;> rfl

theorem answerParamLoad_recorder (set : Byte) (offset : Word) (count : Byte) (words : List Word) (s : State) :
    (answerParamLoad set offset count words s).1.recorder = s.recorder := by
  unfold answerParamLoad
  split
  · rfl
  · refine onSet_recorder (fun n s => ?_) s
    repeat' split
    all_goals first | rfl | exact loadWords_recorder ..

theorem answerParamFree_recorder (set : Byte) (s : State) : (answerParamFree set s).1.recorder = s.recorder := by
  refine onSet_recorder (fun n s => ?_) s
  split <;> rfl

theorem ringKept_refuseQueued (q : List PowerEntry) : ∀ s : State, RingKept s (refuseQueued q s) := by
  induction q with
  | nil => exact fun s => RingKept.refl s
  | cons e q ih =>
    intro s
    refine RingKept.trans ?_ (ih _)
    split
    · exact ((slotFrame_powerDown ..).trans (slotFrame_transition ..)).ringKept
    · exact RingKept.refl s

theorem ringKept_examine (s : State) : RingKept s (examine s) := (slotFrame_examine 0 s).ringKept

theorem ringKept_walkRoom (s : State) : RingKept s (walkRoom s) := (slotFrame_walkRoom 0 s).ringKept

theorem ringKept_answerSetPower (v : PowerFields) (s : State) : RingKept s (answerSetPower v s).1 := by
  have hstored : RingKept s (recomputeThresholds (storePower v s)) := .of_recorder rfl
  unfold answerSetPower
  split
  · exact RingKept.refl s
  · split
    · exact RingKept.refl s
    · dsimp only [applyPower]
      refine RingKept.trans ?_ (ringKept_examine _)
      split
      · exact hstored.trans (ringKept_refuseQueued ..)
      · exact hstored

theorem ringKept_applyCycle (v : CycleSettings) (s : State) : RingKept s (applyCycle v s) := by
  have hmoved : RingKept s (if v.mode = s.planner.settings.mode then
      { s with planner := { s.planner with settings := v } }
      else postCycle .stateChange (changeMode v { s with planner := { s.planner with settings := v } })) := by
    split <;> exact .of_recorder rfl
  unfold applyCycle
  dsimp only
  split
  · exact hmoved.trans (ringKept_walkRoom _)
  · exact hmoved

theorem ringKept_answerSetCycle (mode : Byte) (length : Long) (tolerance : Word) (s : State) :
    RingKept s (answerSetCycle mode length tolerance s).1 := by
  unfold answerSetCycle
  split
  · exact RingKept.refl s
  · dsimp only [judgeCycle]
    repeat' split
    all_goals first | exact RingKept.refl s | exact ringKept_applyCycle ..

theorem ringKept_answerRecSet (v : RecSetFields) (s : State) : RingKept s (answerRecSet v s).1 := by
  unfold answerRecSet
  split
  · exact RingKept.refl s
  · next hstopped =>
    split
    · exact RingKept.refl s
    · next hrange =>
      exact ⟨fun hs => sound_clearRing _ hs (by simpa using hrange) (by simpa using hstopped)⟩

theorem ringKept_answerRecArm (s : State) : RingKept s (answerRecArm s).1 := by
  unfold answerRecArm
  split
  · exact ⟨fun hs => sound_arm hs⟩
  · exact RingKept.refl s

theorem ringKept_answerRecStop (s : State) : RingKept s (answerRecStop s).1 := by
  unfold answerRecStop
  split
  · exact RingKept.refl s
  · exact ⟨fun hs => sound_stop hs⟩

theorem ringKept_answerRecTrigger (s : State) : RingKept s (answerRecTrigger s).1 := by
  unfold answerRecTrigger
  split
  · exact RingKept.refl s
  · exact ⟨fun hs => sound_takeTrigger _ hs⟩

theorem ringKept_answerRecRelease (s : State) : RingKept s (answerRecRelease s).1 := by
  unfold answerRecRelease
  split
  · exact RingKept.refl s
  · next hevents =>
    dsimp only
    split <;> exact ⟨fun hs => sound_release hs hevents⟩

theorem ringKept_hostAct {act : State → State × Answer} (h : HostAct act) (s : State) : RingKept s (act s).1 := by
  cases h with
  | reads h => rw [h]; exact RingKept.refl s
  | settings h =>
    obtain ⟨times, policy, keys, hs⟩ := h s
    rw [hs]
    exact .of_recorder rfl
  | warmRestart => exact .of_recorder rfl
  | setPower v => exact ringKept_answerSetPower v s
  | setCycle mode length tolerance => exact ringKept_answerSetCycle mode length tolerance s
  | slotConsent slot decision => exact ringKept_answerSlotConsent slot decision s
  | slotPark slot => exact ringKept_answerSlotPark slot s
  | slotResume slot => exact ringKept_answerSlotResume slot s
  | slotRestart slot => exact ringKept_answerSlotRestart slot s
  | slotDisable slot => exact ringKept_answerSlotDisable slot s
  | slotEnable slot => exact ringKept_answerSlotEnable slot s
  | slotClearBar slot => exact ringKept_answerSlotClearBar slot s
  | paramBegin set length => exact .of_recorder (answerParamBegin_recorder set length s)
  | paramLoad set offset count words => exact .of_recorder (answerParamLoad_recorder set offset count words s)
  | paramFree set => exact .of_recorder (answerParamFree_recorder set s)
  | recSet v => exact ringKept_answerRecSet v s
  | recArm => exact ringKept_answerRecArm s
  | recStop => exact ringKept_answerRecStop s
  | recTrigger => exact ringKept_answerRecTrigger s
  | recRelease => exact ringKept_answerRecRelease s

/-! ### The port -/

theorem ringKept_takeCommand {kind tag : Byte} {act : State → State × Answer} (hact : HostAct act) (s : State) :
    RingKept s (takeCommand kind tag act s) := by
  unfold takeCommand
  split
  · exact RingKept.refl s
  · split
    · exact .of_recorder rfl
    · exact (ringKept_hostAct hact s).trans (.of_recorder (transmit_recorder _))

theorem dropChecked_recorder (s : State) : (dropChecked s).recorder = s.recorder := by
  unfold dropChecked
  split <;> rfl

theorem ringKept_judgeFrame (taken : List Byte) (s : State) : RingKept s (judgeFrame taken s) := by
  unfold judgeFrame
  dsimp only
  split
  · exact (ringKept_takeCommand (hostAct_frameCommand _ _) _).from_recorder rfl
  · exact .of_recorder (dropChecked_recorder _)

theorem ringKept_takeByte (b : Byte) (s : State) : RingKept s (takeByte b s) := by
  unfold takeByte
  split
  · split <;> exact .of_recorder rfl
  · split
    · exact .of_recorder (dropChecked_recorder _)
    · exact .of_recorder rfl
  · split
    · exact ringKept_judgeFrame ..
    · exact .of_recorder rfl

theorem ringKept_endFrame (b : Byte) (s : State) : RingKept s (endFrame b s) := by
  unfold endFrame
  split
  · exact RingKept.refl s
  · split
    · exact ringKept_judgeFrame ..
    · exact RingKept.refl s

theorem ringKept_abortGap (s : State) : RingKept s (abortGap s) := by
  refine .of_recorder ?_
  unfold abortGap
  split
  · rfl
  · dsimp only
    split <;> rfl

theorem ringKept_restartSlots (l : List SlotId) : ∀ s : State, RingKept s (l.foldl restartSlot s) := by
  induction l with
  | nil => exact fun s => RingKept.refl s
  | cons i l ih =>
    intro s
    refine RingKept.trans ?_ (ih _)
    unfold restartSlot
    split
    · exact ((slotFrame_powerDown i s).trans (slotFrame_toIdentifying ..)).ringKept
    · exact RingKept.refl s

theorem ringKept_catchUpAll (s : State) : RingKept s (catchUpAll s) := by
  have hmany : ∀ (count : SlotId → Nat) (l : List SlotId) s, RingKept s
      (l.foldl (fun u i => takeCompletions i (count i) u) s) := by
    intro count l
    induction l with
    | nil => exact fun s => RingKept.refl s
    | cons i l ih => exact fun s => (ringKept_takeCompletions i (count i) s).trans (ih _)
  exact hmany (fun i => (s.slot i).inbox.completions.length) _ s

theorem ringKept_performRestart (s : State) : RingKept s (performRestart s) := by
  have hcleared : RingKept s (clearPort (catchUpAll s)) := (ringKept_catchUpAll s).trans (.of_recorder rfl)
  refine (hcleared.trans (ringKept_restartSlots (List.finRange 12) _)).trans ?_
  unfold performRestart restartRecorder
  dsimp only
  split <;> exact ⟨fun hs => sound_restart hs⟩

theorem ringKept_restartSent (s : State) : RingKept s (restartSent s) := by
  unfold restartSent
  split
  · exact (ringKept_performRestart s).trans (ringKept_transmit _)
  · exact RingKept.refl s

theorem ringKept_endSending (s : State) : RingKept s (endSending s) := by
  unfold endSending
  split
  · split
    · exact (ringKept_performRestart s).trans (ringKept_transmit _)
    · exact .of_recorder (transmit_recorder _)
  · exact .of_recorder (transmit_recorder _)
  · exact RingKept.refl s

/-! ### Every event -/

theorem ringKept_event {f : State → State} (hf : Event f) (s : State) : RingKept s (f s) := by
  cases hf with
  | host kind tag hact => exact ringKept_takeCommand hact s
  | restartSent => exact ringKept_restartSent s
  | endFrame b => exact ringKept_endFrame b s
  | takeByte b => exact ringKept_takeByte b s
  | abortGap => exact ringKept_abortGap s
  | endSending => exact ringKept_endSending s
  | transmit => exact ringKept_transmit s
  | expireDebounce i contact => exact ringKept_expireDebounce i contact s
  | expireCooldown i => exact ringKept_expireCooldown i s
  | expireSettle i => exact ringKept_expireSettle i s
  | completeJob how => exact ringKept_completeJob how s
  | timeOutByte late => exact ringKept_timeOutByte late s
  | takeNextCompletion i => exact ringKept_takeNextCompletion i s
  | expireConsent i => exact ringKept_expireConsent i s
  | sampleFrame sample => exact ringKept_sampleFrame sample s
  | takeNextFrame i => exact ringKept_takeNextFrame i s
  | expireRamp i => exact ringKept_expireRamp i s
  | expireResetHold i => exact ringKept_expireResetHold i s
  | expirePoll i => exact ringKept_expirePoll i s
  | expireReady i => exact ringKept_expireReady i s
  | takeNextAnnouncement i => exact ringKept_takeNextAnnouncement i s
  | beginMark =>
    refine .of_recorder ?_
    unfold beginMark
    split <;> rfl
  | endMark =>
    refine .of_recorder ?_
    unfold endMark
    split
    · exact startCycle_recorder s
    · rfl
  | endPulse width sinceStart => exact ringKept_endPulse width sinceStart s
  | longPulse => exact ringKept_longPulse s
  | loseMark => exact ringKept_loseMark s
  | takeAdoption i => exact ringKept_takeAdoption i s
  | startWindow => exact ringKept_startWindow s
  | endPart | strobeTick => exact .of_recorder rfl
  | reachGap =>
    refine .of_recorder ?_
    unfold reachGap
    split <;> rfl
  | takeNextOutcome i => exact ringKept_takeNextOutcome i s
  | recorderFrame => exact ringKept_recorderFrame s
  | arriveTrigger t => exact ringKept_arriveTrigger t s
  | traceIn => exact ringKept_presentTrigger _ s
  | endTracePulse => exact ringKept_endTracePulse s
  | arriveReport i => exact ringKept_arriveReport i s
  | expireTail => exact ringKept_expireTail s

/-- Settles O14: the events, the resets and the contact pins keep the ring. -/
theorem stepKeepsRecorderRing : Obligations.StepKeepsRecorderRing := by
  refine step_keeps (P := fun s => s.recorder.sound) (fun s q h => h) (fun f hf s _ => (ringKept_event hf s).keeps)
    (fun rateHigh s _ => ringSound_endReset rateHigh s) (fun s hs => ?reset) (fun i contact made s _ h => h)
    (fun i contact made s _ _ => ((ringKept_catchUpIf _ i s).trans (ringKept_changeContact i contact made _)).keeps)
  case reset => exact hs.of_ring rfl hs.refused_le (.inl rfl)

end Sys2Proof.Machine
end

section
/-!
PROOF. The engine's jobs, one for each slot (02 R40, R41, R46): the account that the statement assumes of a state does not
say that a slot in CONFIGURING without a pin has no job, and an announcement of its set then issues a second one.
-/
namespace Sys2Proof.Machine

/-- A slot in CONFIGURING that waits for its set, with a status read of its own still in the engine. -/
def strayConfiguring : Slot :=
  { Slot.reset true true with
    state := .configuring
    reason := .paramsWait
    screening := { Screening.absent with identity := some (List.replicate 64 0xFF), paramSet := some 0 }
    inbox := { (Slot.reset true true).inbox with announcements := [0] } }

/-- The status read in progress, neither held nor under abort. -/
def strayRead : CurrentJob :=
  { job := { slot := 0, transaction := .statusRead }, held := false, nextByte := 0, received := [], abort := false,
    cutBytes := [] }

/-- The set of the slot has become READY, and its announcement is the next command. -/
def strayState : State :=
  { State.reset with
    pending := [.setReadyAnnouncement 0]
    slots := State.reset.slots.set 0 strayConfiguring
    engine := { State.reset.engine with current := some strayRead }
    sets := State.reset.sets.set 0 { ParamSet.empty with state := .ready, length := 1, words := [0] } }

theorem strayState_queues : strayState.queuesSound := by
  unfold State.queuesSound
  decide +kernel

theorem strayState_jobs : strayState.jobsSound := by
  intro _
  refine ⟨fun h => (nomatch h), by decide +kernel, List.nodup_nil, fun j hj => absurd hj List.not_mem_nil,
    fun cur hcur hheld => ?_, by decide +kernel⟩
  obtain rfl : strayRead = cur := Option.some.inj hcur
  cases hheld

/-- The announcement's first block waits behind a job that is not being aborted. -/
theorem strayState_steps : ∃ t, step strayState = .next t ∧ t.inReset = false ∧ t.engine.current = some strayRead ∧
    t.engine.deferred = [{ slot := 0, transaction := .blockWrite 0 0 1 }] :=
  ⟨_, rfl, by decide +kernel, by decide +kernel, by decide +kernel⟩

/-- Refutes O7: `strayState` satisfies the account of jobs, and its step defers a job behind one that is not being aborted
(02 R46). The account allows a slot in CONFIGURING to have a job while it holds no pin. -/
theorem not_stepKeepsOneJobPerSlot : ¬ Obligations.StepKeepsOneJobPerSlot := by
  intro h
  obtain ⟨t, hstep, hlive, hcurrent, hdeferred⟩ := strayState_steps
  obtain ⟨-, -, -, hbehind, -⟩ := h strayState t ⟨strayState_queues, strayState_jobs⟩ hstep hlive
  obtain ⟨cur, hcur, -, habort⟩ := hbehind _ (by rw [hdeferred]; exact List.mem_singleton_self _)
  obtain rfl : strayRead = cur := Option.some.inj (hcurrent.symm.trans hcur)
  cases habort

end Sys2Proof.Machine
end

section
/-!
PROOF. The recorder's triggers and its gate (09 R164, R168 to R173, R176).
-/
namespace Sys2Proof.Machine

theorem enabled_eq (v : RecSettings) (x : TriggerSource) : v.enabled x = v.enables.getLsbD x.code := by
  cases x <;> rfl

theorem gated_iff (x : TriggerSource) : x.gated = true ↔ x = .slotOvercurrent ∨ x = .slotPowerLost ∨ x = .railDip := by
  cases x <;> decide

theorem takeTrigger_disabled {u : Recorder} {x : Trigger} (h : u.settings.enables.getLsbD x.source.code = false) :
    u.takeTrigger x = (u, .disabled) := if_neg (by rw [enabled_eq, h]; decide)

theorem takeTrigger_enabled {u : Recorder} {x : Trigger} (h : u.settings.enables.getLsbD x.source.code = true) :
    u.takeTrigger x = u.takeEnabled x := if_pos (by rw [enabled_eq, h])

/-- The inhibit phase of a capture (09 R172). -/
theorem takeEnabled_inhibit {u : Recorder} {c : Capture} (x : Trigger) (hst : u.state = .capturing c)
    (h : u.settings.overlap < c.remaining) : u.takeEnabled x =
      if x.source.gated then (u, .ignored)
      else if u.latches.contains x.source then (u, .merged)
      else ({ u with latches := u.latches ++ [x.source] }, .latched) := by
  unfold Recorder.takeEnabled
  rw [hst]
  exact if_pos h

/-- The overlap phase of a capture (09 R173). -/
theorem takeEnabled_overlap {u : Recorder} {c : Capture} (x : Trigger) (hst : u.state = .capturing c)
    (h : ¬ u.settings.overlap < c.remaining) : u.takeEnabled x =
      match u.overlap with
      | some _ => (u, .merged)
      | none => (Recorder.pulse { u with overlap := some x }, .overlap) := by
  unfold Recorder.takeEnabled
  rw [hst]
  exact (if_neg h).trans (by split <;> simp [*])

theorem exec_recTrigger (tag : Byte) (s : State) :
    exec (.recTrigger tag) s = whenLive (takeCommand 0x53 tag answerRecTrigger) s := rfl

theorem exec_triggerTaken {s : State} (h : s.inReset = false) (x : Trigger) :
    exec (.triggerTaken x) s = .next (arriveTrigger x s) := whenLive_live h

theorem exec_gateReportTaken {s : State} (h : s.inReset = false) (i : SlotId) :
    exec (.gateReportTaken i) s = .next (arriveReport i s) := whenLive_live h

theorem exec_gateTailExpiry {s : State} (h : s.inReset = false) : exec .gateTailExpiry s = .next (expireTail s) :=
  whenLive_live h

/-- The oldest report of a slot stands behind the reports of other slots. -/
theorem arriveReport_found {s : State} {i : SlotId} {before after : List GateReport} {g : GateReport}
    (hlist : s.recorder.gateReports = before ++ g :: after) (hbefore : ∀ h ∈ before, h.slot ≠ i) (hg : g.slot = i) :
    arriveReport i s =
      s.setRecorder (Recorder.takeReport { s.recorder with gateReports := before ++ after } g.entering) := by
  have hfind : s.recorder.gateReports.find? (fun h => decide (h.slot = i)) = some g := by
    rw [hlist, List.find?_append, List.find?_eq_none.2 (fun h hh => by simpa using hbefore h hh)]
    simp [hg]
  have herase : s.recorder.gateReports.erase g = before ++ after := by
    rw [hlist, List.erase_append_right _ (fun hmem => hbefore g hmem hg), List.erase_cons_head]
  unfold arriveReport
  rw [hfind]
  dsimp only
  rw [herase]

theorem arriveReport_none {s : State} {i : SlotId} (h : ∀ g ∈ s.recorder.gateReports, g.slot ≠ i) :
    arriveReport i s = s := by
  unfold arriveReport
  rw [List.find?_eq_none.2 fun g hg => by simpa using h g hg]

/-- Settles O59. -/
theorem recorderTakesTriggersAndGate : Obligations.RecorderTakesTriggersAndGate := by
  intro s tag hlive r v pulsed started taken host
  have hpulsed : ∀ u : Recorder, u.settings = v → pulsed u = u.pulse := by
    intro u hu
    show (if v.traceOut = true then ({ u with traceOutLow := true } : Recorder) else u) = u.pulse
    rw [← hu]
    rfl
  have htaken : ∀ u x, u.settings = v → taken u x = ((u.takeTrigger x).1, (u.takeTrigger x).2.code) := by
    intro u x hu
    show (if v.enables.getLsbD x.source.code = false then _ else _) = _
    split
    · next hoff => rw [takeTrigger_disabled (by rw [hu]; exact hoff)]; rfl
    · next hon =>
      rw [takeTrigger_enabled (by rw [hu]; simpa using hon)]
      split
      · next hst => rw [Recorder.takeEnabled, hst]; rfl
      · next hst => rw [Recorder.takeEnabled, hst]; rfl
      · next hst => rw [Recorder.takeEnabled, hst]; rfl
      · next hst =>
        rw [hpulsed _ (by exact hu), Recorder.takeEnabled, hst]
        show _ = ((u.startCapture x).pulse, (0 : Byte))
        rw [Recorder.startCapture, Recorder.frameCount, hu]
        rfl
      · next c hst =>
        split
        · next hin =>
          rw [takeEnabled_inhibit x hst (by rw [hu]; exact hin)]
          by_cases hgated : x.source.gated = true
          · rw [if_pos ((gated_iff _).1 hgated), if_pos hgated]
            rfl
          · rw [if_neg (fun h => hgated ((gated_iff _).2 h)), if_neg hgated]
            by_cases hlatched : x.source ∈ u.latches
            · rw [if_pos hlatched, if_pos (List.contains_iff_mem.2 hlatched)]
              rfl
            · rw [if_neg hlatched, if_neg (fun h => hlatched (List.contains_iff_mem.1 h))]
              rfl
        · next hout =>
          rw [takeEnabled_overlap x hst (by rw [hu]; exact hout)]
          cases u.overlap with
          | none => rw [if_neg (by simp), hpulsed _ (by exact hu)]; rfl
          | some y => exact if_pos rfl
  refine ⟨fun htakes hst => ?wrong, fun htakes hst => ?host, fun x hx => ?taken, fun x hx => ?absent, ?traceIn, ?pulse,
    fun i before after g hlist hbefore hg => ?report, fun i hnone => ?noReport, ?tail⟩
  case wrong => exact command_replied htakes (if_pos hst)
  case host =>
    rw [exec_recTrigger, command_acts htakes (show answerRecTrigger s = _ from if_neg hst)]
    show _ = Host.Outcome.next (({ s with recorder := (taken r { source := .host, slot := none }).1 } : State).replied 0x53
      tag .ok [(taken r { source := .host, slot := none }).2])
    rw [htaken r _ rfl]
    rfl
  case taken =>
    rw [exec_triggerTaken hlive, arriveTrigger, if_pos (List.contains_iff_mem.2 hx),
      htaken { r with triggers := r.triggers.erase x } x rfl]
    rfl
  case absent => rw [exec_triggerTaken hlive, arriveTrigger, if_neg fun h => hx (List.contains_iff_mem.1 h)]
  case traceIn => exact whenLive_live hlive
  case pulse => exact whenLive_live hlive
  case report =>
    intro u
    rw [exec_gateReportTaken hlive, arriveReport_found hlist hbefore hg]
    rfl
  case noReport => rw [exec_gateReportTaken hlive, arriveReport_none hnone]
  case tail => rw [exec_gateTailExpiry hlive]; rfl

end Sys2Proof.Machine
end

section
/-!
PROOF. The host's recorder commands that move the recorder's state and its ring (09 R164 to R166, R180, R181).
-/
namespace Sys2Proof.Machine

theorem exec_recSet (tag : Byte) (v : RecSetFields) (s : State) :
    exec (.recSet tag v) s = whenLive (takeCommand 0x50 tag (answerRecSet v)) s := rfl
theorem exec_recArm (tag : Byte) (s : State) : exec (.recArm tag) s = whenLive (takeCommand 0x51 tag answerRecArm) s := rfl
theorem exec_recStop (tag : Byte) (s : State) : exec (.recStop tag) s = whenLive (takeCommand 0x52 tag answerRecStop) s :=
  rfl
theorem exec_recRelease (tag : Byte) (s : State) :
    exec (.recRelease tag) s = whenLive (takeCommand 0x56 tag answerRecRelease) s := rfl

/-- A recorder notice waits with the recorder it speaks of. -/
theorem postedRecorder_postRecorder (cause : RecCause) (s : State) : (postRecorder cause s).postedRecorder cause :=
  mem_placeNotice_self _ _

theorem arm_full {r : Recorder} (h : r.w = r.r ∧ r.lastWrite = true) : r.arm = { r with state := .full } := if_pos h

theorem arm_free {r : Recorder} (h : ¬ (r.w = r.r ∧ r.lastWrite = true)) : r.arm = r.armFree := if_neg h

theorem armFree_state_ne_full (r : Recorder) : r.armFree.state ≠ .full := by
  show (if r.settings.pre = 0 then RecState.ready else .fillingPre) ≠ .full
  split <;> decide

theorem inRange_iff (n : RecSettings) : n.inRange = true ↔ n.mode ≤ 5 ∧ n.pre < 96 * 2 ^ n.mode ∧
    n.overlap + n.pre < 96 * 2 ^ n.mode ∧ 1 ≤ n.decimation ∧ n.decimation ≤ 100 ∧ n.gateTail ≤ 1000 := by
  unfold RecSettings.inRange framesOf
  rw [Nat.add_comm n.pre]
  simp [and_assoc]

/-- Settles O57. -/
theorem recorderCommandsMoveStates : Obligations.RecorderCommandsMoveStates := by
  intro s tag htakes r bytes moves filling stopped
  have hbytes : ∀ v, bytes v = recSettingsBytes v := fun v => by
    show _ ++ u8 (if v.traceOut = true then 1 else 0) = _
    rw [← flagByte_eq]
    rfl
  -- a taken command that moves the recorder and posts its notice
  have hmoves : ∀ {command : Instr} {cause : RecCause} {kind : Byte} {data : List Byte} {u : Recorder}
      {act : State → State × Answer}, exec command s = whenLive (takeCommand kind tag act) s →
      act s = (postRecorder cause (s.setRecorder u), okAnswer data) → moves command cause kind data u := by
    intro command cause kind data u act hexec hact
    exact ⟨queueReply kind tag (okAnswer data) (postRecorder cause (s.setRecorder u)),
      by rw [hexec, command_acts htakes hact], rfl, postedRecorder_postRecorder .., rfl, rfl, rfl⟩
  refine ⟨fun v => ?set, fun hst hall => ?armFull, fun hst hsome => ?armFree, fun hst => ?armWrong, fun hst => ?stopIdle,
    fun hst => ?stop, fun hnone => ?releaseEmpty, fun e rest hevents => ?release⟩
  case set =>
    intro n inRange cleared
    have hrange : ¬ inRange ↔ (!(carriedRecSettings v).inRange) = true := by
      rw [Bool.not_eq_true', ← Bool.not_eq_true, inRange_iff]
      rfl
    refine ⟨fun hst => ?_, fun hst hout => ?_, fun hst hin => ?_⟩
    · rw [exec_recSet, hbytes]
      exact command_replied htakes (if_pos hst)
    · rw [exec_recSet, hbytes]
      exact command_replied htakes ((if_neg (Classical.not_not.2 hst)).trans (if_pos (hrange.1 hout)))
    · rw [exec_recSet, hbytes, command_acts htakes (show answerRecSet v s = _ from
        (if_neg (Classical.not_not.2 hst)).trans (if_neg fun h => hrange.2 h hin))]
      rfl
  case armFull =>
    refine hmoves (exec_recArm tag s) ?_
    rw [answerRecArm, if_pos hst, arm_full hall]
    rfl
  case armFree =>
    refine hmoves (exec_recArm tag s) ?_
    rw [answerRecArm, if_pos hst, arm_free hsome]
    dsimp only
    rw [if_neg (armFree_state_ne_full _)]
    rfl
  case armWrong => exact command_replied htakes (if_neg hst)
  case stopIdle => exact command_replied htakes (if_pos hst)
  case stop => exact hmoves (exec_recStop tag s) (if_neg hst)
  case releaseEmpty =>
    refine command_replied htakes ?_
    rw [answerRecRelease, show s.recorder.events = [] from hnone]
    rfl
  case release =>
    intro freed
    have hact : answerRecRelease s = (if s.recorder.state = .full
        then postRecorder .stateChange (s.setRecorder (s.recorder.release rest))
        else s.setRecorder (s.recorder.release rest), okAnswer (u16 e.sequence)) := by
      unfold answerRecRelease
      rw [show s.recorder.events = e :: rest from hevents]
    refine ⟨fun hfull => ?_, fun hnot => ?_⟩
    · refine hmoves (exec_recRelease tag s) (hact.trans ?_)
      rw [if_pos hfull, Recorder.release, if_pos hfull]
      rfl
    · rw [exec_recRelease, command_acts htakes hact, if_neg hnot, Recorder.release, if_neg hnot]
      rfl

end Sys2Proof.Machine
end

section
/-!
PROOF. What a monitor frame does to the recorder (09 R162, R163, R167, R171 to R177, R181).
-/
namespace Sys2Proof.Machine

/-! ### The frame's effects -/

theorem exec_recorderFrameTaken {s : State} (h : s.inReset = false) : exec .recorderFrameTaken s = .next (recorderFrame s) :=
  whenLive_live h

theorem recorderFrame_taken {s : State} {f : MonitorFrame} {rest : List MonitorFrame} {c : Recorder} {e : FrameEffect}
    (hframes : s.recorder.frames = f :: rest)
    (htaken : Recorder.takeFrame { s.recorder with frames := rest } f s.sequencer.cycleCount = (c, e)) :
    recorderFrame s = noticeCause e.cause (writeTraceRef e.traceRef (s.setRecorder c)) := by
  unfold recorderFrame
  rw [hframes]
  dsimp only
  rw [htaken]

theorem slot_writeTraceRef (reference : Option (SlotId × Nat)) (s : State) (i : SlotId) :
    (writeTraceRef reference s).slot i =
      match reference with
      | some (j, n) => if j = i then { s.slot i with traceRef := some n } else s.slot i
      | none => s.slot i := by
  cases reference with
  | none => rfl
  | some p =>
    obtain ⟨j, n⟩ := p
    show (s.updSlot j _).slot i = if j = i then _ else _
    split
    · next h => subst h; rw [slot_updSlot_self]
    · next h => rw [slot_updSlot_ne _ _ (Ne.symm h)]

/-! ### What the recorder takes by its state -/

theorem takeFrame_idle {r : Recorder} (f : MonitorFrame) (cycle : Long) (hst : r.state = .stopped ∨ r.state = .full) :
    r.takeFrame f cycle = (r, FrameEffect.none) := by
  unfold Recorder.takeFrame
  rcases hst with hst | hst <;> split <;> simp_all

/-- A frame that the decimation passes over. -/
theorem takeFrame_passes {r : Recorder} (f : MonitorFrame) (cycle : Long) (hskip : r.skip ≠ 0)
    (hst : r.state = .fillingPre ∨ r.state = .ready ∨ ∃ c, r.state = .capturing c ∧ c.awaiting = false) :
    r.takeFrame f cycle = r.passOver := by
  unfold Recorder.takeFrame
  rcases hst with hst | hst | ⟨c, hst, hawaiting⟩ <;> split <;> simp_all

theorem takeFrame_filling {r : Recorder} (f : MonitorFrame) (cycle : Long) (hskip : r.skip = 0)
    (hst : r.state = .fillingPre) : r.takeFrame f cycle =
      if r.settings.pre ≤ (r.store f.sample).written then
        ({ r.store f.sample with state := .ready }, { cause := some .stateChange, traceRef := none })
      else (r.store f.sample, FrameEffect.none) := by
  unfold Recorder.takeFrame
  split
  case h_3 => exact if_neg (Classical.not_not.2 hskip)
  all_goals simp_all

theorem takeFrame_ready {r : Recorder} (f : MonitorFrame) (cycle : Long) (hskip : r.skip = 0) (hst : r.state = .ready) :
    r.takeFrame f cycle = (r.store f.sample, FrameEffect.none) := by
  unfold Recorder.takeFrame
  split
  case h_4 => exact if_neg (Classical.not_not.2 hskip)
  all_goals simp_all

/-! ### A stored frame of a capture -/

/-- The frame before the write position, when the write position has just moved on. -/
theorem stop_index {p L : Nat} (h : p < L) : ((p + 1) % L + L - 1) % L = p := by
  rcases ring_next h with ⟨hend, hnext⟩ | ⟨hinside, hnext⟩
  · rw [hnext, Nat.mod_eq_of_lt (by omega)]
    omega
  · rw [hnext, show p + 1 + L - 1 = p + L by omega, Nat.add_mod_right, Nat.mod_eq_of_lt h]

theorem captureStored_eq {u w : Recorder} {k counted : Capture}
    (hcounted : ({ k with remaining := k.remaining - 1 } : Capture) = counted)
    (hw : (if counted.remaining = u.settings.overlap then Recorder.enterOverlap { u with state := .capturing counted }
      else { u with state := .capturing counted }) = w) :
    u.captureStored k = if counted.remaining = 0 then w.freeze counted else (w, FrameEffect.none) := by
  subst hcounted
  rw [← hw]
  rfl

/-- The overlap phase begins: the earlier latch becomes overlap-pending with its pulse (09 R171, R172). -/
theorem enterOverlap_eq (w : Recorder) : w.enterOverlap = { w with
    overlap := if w.latches ≠ [] then w.latches.head?.map fun x => { source := x, slot := none } else w.overlap
    latches := []
    traceOutLow := w.traceOutLow || (decide (w.latches ≠ []) && w.settings.traceOut) } := by
  unfold Recorder.enterOverlap
  cases hl : w.latches with
  | nil => simp [← hl]
  | cons x rest =>
    unfold Recorder.pulse
    cases htrace : w.settings.traceOut <;> simp [htrace]

/-- A counted capture at O with a latch set enters the overlap phase with it; any other goes on. -/
theorem phase_eq (w : Recorder) (k : Capture) (latched : Prop) [Decidable latched]
    (hlatched : latched ↔ k.remaining = w.settings.overlap ∧ w.latches ≠ []) :
    (if k.remaining = w.settings.overlap then Recorder.enterOverlap { w with state := .capturing k }
      else { w with state := .capturing k }) = { w with
        state := .capturing k
        overlap := if latched then w.latches.head?.map fun x => { source := x, slot := none } else w.overlap
        latches := if latched then [] else w.latches
        traceOutLow := w.traceOutLow || (decide latched && w.settings.traceOut) } := by
  by_cases hO : k.remaining = w.settings.overlap
  · rw [if_pos hO, enterOverlap_eq]
    by_cases hne : w.latches = []
    · have hno : ¬ latched := fun h => (hlatched.1 h).2 hne
      simp [hno, hne]
    · have hyes : latched := hlatched.2 ⟨hO, hne⟩
      simp [hyes, hne]
  · have hno : ¬ latched := fun h => hO (hlatched.1 h).1
    simp [hO, hno]

/-! ### The freeze (09 R173 to R175) -/

theorem freeze_kept {w : Recorder} {k : Capture} (h : k.source.source.gated = false ∨ w.gateOpen = true) :
    w.freeze k = w.keepSegment k := if_pos (by rcases h with h | h <;> simp [h])

theorem freeze_discarded {w : Recorder} {k : Capture} (hgated : k.source.source.gated = true) (hshut : w.gateOpen = false) :
    w.freeze k = w.discardSegment := if_neg (by simp [hgated, hshut])

/-- A recorder with segment W frozen and its record queued (09 R174, R177). -/
def Recorder.pushed (w : Recorder) (k : Capture) : Recorder :=
  { w with events := w.events ++ [w.recordOf k], sequence := (w.sequence + 1) % 65536, refused := 0,
           w := (w.w + 1) % w.segments, lastWrite := true }

theorem keepSegment_full {w : Recorder} {k : Capture} (h : (w.w + 1) % w.segments = w.r) : w.keepSegment k =
    ({ w.pushed k with state := .full, refused := if w.overlap.isSome then 1 else 0, overlap := none },
      { cause := some .full, traceRef := k.source.slot.map fun i => (i, w.sequence) }) := if_pos h

theorem keepSegment_chained {w : Recorder} {k : Capture} {x : Trigger} (h : (w.w + 1) % w.segments ≠ w.r)
    (hpending : w.overlap = some x) : w.keepSegment k =
    ({ (w.pushed k).makeCurrent with
        overlap := none
        state := .capturing { source := x, remaining := w.frameCount, awaiting := true, pre := 0, triggerIndex := 0,
                              time := 0, cycle := 0 } },
      { cause := some .record, traceRef := k.source.slot.map fun i => (i, w.sequence) }) := by
  refine (if_neg h).trans ?_
  split
  · next y hy =>
    obtain rfl : x = y := Option.some.inj (hpending.symm.trans hy)
    rfl
  · next hnone => exact absurd (hpending.symm.trans hnone) (by simp)

theorem keepSegment_filling {w : Recorder} {k : Capture} (h : (w.w + 1) % w.segments ≠ w.r) (hnone : w.overlap = none) :
    w.keepSegment k = ((w.pushed k).beginFilling,
      { cause := some .record, traceRef := k.source.slot.map fun i => (i, w.sequence) }) := by
  refine (if_neg h).trans ?_
  split
  · next y hy => exact absurd (hnone.symm.trans hy) (by simp)
  · rfl

theorem discardSegment_chained {w : Recorder} {x : Trigger} (hpending : w.overlap = some x)
    (hungated : x.source.gated = false) : w.discardSegment =
    (Recorder.startCapture { w with state := .ready, pattern := 0, overlap := none } x,
      { cause := some .discard, traceRef := none }) := by
  unfold Recorder.discardSegment
  simp only [hpending, hungated]
  rfl

theorem discardSegment_ready {w : Recorder} (h : ∀ x, w.overlap = some x → x.source.gated = true) : w.discardSegment =
    ({ w with state := .ready, pattern := 0, overlap := none }, { cause := some .discard, traceRef := none }) := by
  unfold Recorder.discardSegment
  cases hpending : w.overlap with
  | none => rfl
  | some x => simp only [h x hpending, if_true]

/-- The capture of a frame that is stored: the awaited trigger frame gives it its index, time and cycle (09 R171). -/
def Recorder.captured (r : Recorder) (c : Capture) (f : MonitorFrame) (cycle : Long) : Capture :=
  if c.awaiting then { c with awaiting := false, triggerIndex := r.writePos, time := f.time, cycle := cycle } else c

theorem captured_kept (r : Recorder) (c : Capture) (f : MonitorFrame) (cycle : Long) :
    (r.captured c f cycle).remaining = c.remaining ∧ (r.captured c f cycle).source = c.source ∧
      (r.captured c f cycle).pre = c.pre := by
  unfold Recorder.captured
  split <;> exact ⟨rfl, rfl, rfl⟩

theorem takeFrame_capturing {r : Recorder} {c : Capture} {f : MonitorFrame} {cycle : Long} (hst : r.state = .capturing c)
    (h : c.awaiting = true ∨ r.skip = 0) :
    r.takeFrame f cycle = (r.store f.sample).captureStored (r.captured c f cycle) := by
  unfold Recorder.takeFrame Recorder.captured
  rw [hst]
  by_cases hawaiting : c.awaiting = true
  · simp only [hawaiting, if_true]
  · simp only [hawaiting, Bool.false_eq_true, if_false, if_neg (Classical.not_not.2 (h.resolve_left hawaiting))]

theorem gated_false_iff (x : TriggerSource) : x.gated = false ↔ x = .host ∨ x = .external := by
  cases x <;> decide

/-- Settles O60. -/
theorem recorderStoresFrames : Obligations.RecorderStoresFrames := by
  intro s f rest hlive hsound hframes r v L S passes storing stores posts silent started current
  have hwf : s.recorder.memory.wf = true := by
    obtain ⟨-, -, -, -, -, -, -, -, -, -, -, hmem, -⟩ := hsound
    exact hmem
  have hpos : r.writePos < L := by
    obtain ⟨-, -, -, -, -, -, hposIn, -⟩ := hsound
    exact hposIn
  -- what one frame's outcome makes of the machine
  have hexec : ∀ {c e}, r.takeFrame f s.sequencer.cycleCount = (c, e) → exec .recorderFrameTaken s =
      .next (noticeCause e.cause (writeTraceRef e.traceRef (s.setRecorder c))) := fun htaken => by
    rw [exec_recorderFrameTaken hlive, recorderFrame_taken hframes htaken]
  have hpasses : r.takeFrame f s.sequencer.cycleCount = r.passOver → passes := fun htaken => hexec htaken
  have hstores : ∀ {p : Recorder → State → Prop} {c : Recorder},
      r.takeFrame f s.sequencer.cycleCount = (c, FrameEffect.none) → p (r.store f.sample) (s.setRecorder c) →
      stores p := fun htaken hp =>
    ⟨_, _, hexec htaken, fun a => read_write hwf _ a _, rfl, rfl, hp⟩
  have hread : ∀ a, readPlace (r.store f.sample).memory a =
      if a = r.w * L + r.writePos then f.sample else readPlace s.recorder.memory a := fun a => read_write hwf _ a _
  have hposts : ∀ {c : Recorder} {cause : RecCause} {reference : Option (SlotId × Nat)},
      r.takeFrame f s.sequencer.cycleCount = (c, { cause := some cause, traceRef := reference }) →
      exec .recorderFrameTaken s = .next (transmit (postRecorder cause (writeTraceRef reference (s.setRecorder c)))) :=
    fun htaken => hexec htaken
  have hrest : ∀ (c : Recorder) (cause : RecCause) (reference : Option (SlotId × Nat)),
      { postRecorder cause (writeTraceRef reference (s.setRecorder c)) with
        slots := s.slots, recorder := s.recorder, link := s.link } = s := by
    intro c cause reference
    cases reference <;> rfl
  have hlink : ∀ (c : Recorder) (cause : RecCause) (reference : Option (SlotId × Nat)),
      { (postRecorder cause (writeTraceRef reference (s.setRecorder c))).link with notices := s.link.notices } = s.link := by
    intro c cause reference
    cases reference <;> rfl
  refine ⟨fun hst => hexec (takeFrame_idle f _ hst), fun hst hskip => hpasses (takeFrame_passes f _ hskip (.inl hst)),
    fun hst hskip hmore => hstores (c := r.store f.sample) ?filling ⟨rfl, rfl, rfl⟩,
    fun hst hskip hready => ⟨_, _, hposts (reference := none) ?ready, hread, hrest .., hlink .., rfl, rfl,
      postedRecorder_postRecorder ..⟩, fun hst hskip => hpasses (takeFrame_passes f _ hskip (.inr (.inl hst))),
    fun hst hskip => hstores (takeFrame_ready f _ hskip hst) ⟨rfl, rfl, rfl⟩, fun c hst => ?capture⟩
  case filling =>
    refine (takeFrame_filling f _ hskip hst).trans (if_neg ?_)
    show ¬ v.pre ≤ min L (r.written + 1)
    omega
  case ready =>
    refine (takeFrame_filling f _ hskip hst).trans (if_pos ?_)
    show v.pre ≤ min L (r.written + 1)
    have hpre : v.pre < L := by
      obtain ⟨hrange, -⟩ := hsound
      obtain ⟨-, hpre, -⟩ := (inRange_iff _).1 hrange
      exact hpre
    omega
  case capture =>
    intro counted latched pending phased ungated kept w record pushed referred
    refine ⟨fun hawaiting hskip => hpasses (takeFrame_passes f _ hskip (.inr (.inr ⟨c, hst, hawaiting⟩))),
      fun hselected => ?_⟩
    obtain ⟨hremaining, hsource, hpre⟩ := captured_kept r c f s.sequencer.cycleCount
    have hcounted : { r.captured c f s.sequencer.cycleCount with
        remaining := (r.captured c f s.sequencer.cycleCount).remaining - 1 } = counted := by
      show _ = if c.awaiting then _ else _
      unfold Recorder.captured
      split <;> rfl
    have hgone : counted.remaining = c.remaining - 1 := by rw [← hcounted, ← hremaining]
    have hphase := phase_eq (r.store f.sample) counted latched Iff.rfl
    have htaken := (takeFrame_capturing (f := f) (cycle := s.sequencer.cycleCount) hst hselected).trans
      (captureStored_eq hcounted hphase)
    have hfreezes : c.remaining ≤ 1 → r.takeFrame f s.sequencer.cycleCount =
        Recorder.freeze { phased (r.store f.sample) with state := .capturing counted } counted := fun hlast =>
      htaken.trans (if_pos (by omega))
    have hsourceOf : counted.source = c.source := by rw [← hcounted]; exact hsource
    have hpreOf : counted.pre = c.pre := by rw [← hcounted]; exact hpre
    have hrecord : Recorder.recordOf { phased (r.store f.sample) with state := .capturing counted } counted = record := by
      show ({ sequence := r.sequence, segment := r.w, stop := ((r.writePos + 1) % L + L - 1) % L,
              triggerIndex := counted.triggerIndex, pre := counted.pre, source := counted.source, pattern := r.pattern,
              time := counted.time, cycle := counted.cycle, gateOpen := r.gateOpen, refused := r.refused } :
              EventRecord) = record
      rw [stop_index hpos, hpreOf, hsourceOf]
    have hpushed : Recorder.pushed { phased (r.store f.sample) with state := .capturing counted } counted =
        { pushed (r.store f.sample) with state := .capturing counted } := by
      unfold Recorder.pushed
      rw [hrecord]
      rfl
    have hfrozen : c.remaining ≤ 1 → kept → r.takeFrame f s.sequencer.cycleCount =
        Recorder.keepSegment { phased (r.store f.sample) with state := .capturing counted } counted := by
      intro hlast hkept
      refine (hfreezes hlast).trans (freeze_kept ?_)
      rw [hsourceOf]
      exact hkept.imp (gated_false_iff _).2 id
    have hdropped : c.remaining ≤ 1 → ¬ kept → r.takeFrame f s.sequencer.cycleCount =
        Recorder.discardSegment { phased (r.store f.sample) with state := .capturing counted } := by
      intro hlast hgone
      obtain ⟨hgated, hshut⟩ := not_or.1 hgone
      refine (hfreezes hlast).trans (freeze_discarded ?_ (Bool.eq_false_iff.2 hshut))
      rw [hsourceOf]
      exact Bool.not_eq_false _ ▸ fun h => hgated ((gated_false_iff _).1 h)
    have hreferred : ∀ (cause : RecCause) (u : Recorder), referred (postRecorder cause
        (writeTraceRef (counted.source.slot.map fun i => (i, r.sequence)) (s.setRecorder u))) := by
      intro cause u i
      show (writeTraceRef _ (s.setRecorder u)).slot i = _
      rw [slot_writeTraceRef, hsourceOf]
      cases c.source.slot with
      | none => rfl
      | some j => simp
    have hwritten : ∀ (cause : RecCause) (reference : Option (SlotId × Nat)) (u : Recorder),
        (postRecorder cause (writeTraceRef reference (s.setRecorder u))).recorder = u := by
      intro cause reference u
      rw [postRecorder_recorder, writeTraceRef_recorder]
      rfl
    refine ⟨fun hleft => ⟨_, _, hexec (htaken.trans (if_neg (by omega))), hread, rfl, rfl, rfl, rfl, rfl⟩,
      fun hlast hkept hfull => ?full, fun x hlast hkept hroom hpending => ?chained,
      fun hlast hkept hroom hpending => ?filling, fun x hlast hgated hpending hungated => ?again,
      fun hlast hgated hpending => ?discarded⟩
    case full =>
      refine ⟨_, _, hposts ((hfrozen hlast hkept).trans (keepSegment_full hfull)), hread, hrest .., hlink ..,
        hreferred _ _, postedRecorder_postRecorder .., ?_⟩
      rw [hwritten, hpushed]
      rfl
    case chained =>
      refine ⟨_, _, hposts ((hfrozen hlast hkept).trans (keepSegment_chained hroom hpending)), hread, hrest .., hlink ..,
        hreferred _ _, postedRecorder_postRecorder .., ?_⟩
      rw [hwritten, hpushed]
      rfl
    case filling =>
      refine ⟨_, _, hposts ((hfrozen hlast hkept).trans (keepSegment_filling hroom hpending)), hread, hrest .., hlink ..,
        hreferred _ _, postedRecorder_postRecorder .., ?_⟩
      rw [hwritten, hpushed]
      show ({ current (pushed (r.store f.sample)) with
        overlap := pending, state := if v.pre = 0 then .ready else .fillingPre } : Recorder) = _
      rw [hpending]
      rfl
    case again =>
      refine ⟨_, _, hposts ((hdropped hlast hgated).trans (discardSegment_chained hpending ((gated_false_iff _).2 hungated))),
        hread, hrest .., hlink .., rfl, postedRecorder_postRecorder .., ?_⟩
      rw [hwritten]
      rfl
    case discarded =>
      refine ⟨_, _, hposts ((hdropped hlast hgated).trans (discardSegment_ready fun x hx => ?_)),
        hread, hrest .., hlink .., rfl, postedRecorder_postRecorder .., ?_⟩
      · exact Bool.not_eq_false _ ▸ fun h => hpending x hx ((gated_false_iff _).1 h)
      · rw [hwritten]
        rfl

end Sys2Proof.Machine
end

section
/-!
PROOF. A window's accesses, part by part, and the time they take (07 R127 to R131, 08 R154, R155).
-/
namespace Sys2Proof.Machine

/-! ### The run of a window, case by case -/

theorem exec_windowStart {s : State} (h : s.inReset = false) : exec .windowStart s = .next (startWindow s) := whenLive_live h

theorem exec_accessPartEnd {s : State} (h : s.inReset = false) :
    exec .accessPartEnd s = .next (updRun WindowRun.endPart s) := whenLive_live h

theorem exec_strobeTickEnd {s : State} (h : s.inReset = false) (rdyHigh : Bool) :
    exec (.strobeTickEnd rdyHigh) s = .next (updRun (WindowRun.strobeTick rdyHigh) s) := whenLive_live h

theorem updRun_run {s : State} {r : WindowRun} (f : WindowRun → WindowRun) (h : s.sequencer.run = some r) :
    updRun f s = { s with sequencer := { s.sequencer with run := some (f r) } } := by
  rw [updRun, h]
  rfl

theorem fullAt_iff (d : Descriptor) (index : Nat) : d.fullAt index = true ↔ index % d.burst = 0 := decide_eq_true_iff

theorem beginAccess_eq (r : WindowRun) : r.beginAccess =
    if r.index % r.window.burst = 0 ∧ r.window.setupQ ≠ 0 then { r with part := .setup } else r.beginStrobe := by
  unfold WindowRun.beginAccess
  simp [Descriptor.fullAt]

theorem arrive_access {r : WindowRun} (h : r.index < r.window.transfers r.inPhase) : r.arrive = r.beginAccess := if_pos h

theorem arrive_inPhase {r : WindowRun} (h : ¬ r.index < r.window.transfers r.inPhase) (hout : r.inPhase = false)
    (hin : 0 < r.window.inTransfers) : r.arrive = WindowRun.beginAccess { r with inPhase := true, index := 0 } :=
  (if_neg h).trans (if_pos (by simp [hout, hin]))

theorem arrive_tail {r : WindowRun} (h : ¬ r.index < r.window.transfers r.inPhase)
    (hend : ¬ (r.inPhase = false ∧ 0 < r.window.inTransfers)) : r.arrive = { r with part := .tail } :=
  (if_neg h).trans (if_neg (by simpa using hend))

theorem endPart_setup {r : WindowRun} (h : r.part = .setup) :
    r.endPart = WindowRun.beginStrobe { r with elapsed := r.elapsed + r.window.setupQ } := by
  unfold WindowRun.endPart; rw [h]

theorem endPart_strobe {r : WindowRun} (h : r.part = .strobe) :
    r.endPart = if r.window.stretch = 0 then r.endStrobe else r := by
  unfold WindowRun.endPart; rw [h]

theorem endPart_hold {r : WindowRun} (h : r.part = .hold) :
    r.endPart = WindowRun.nextAccess { r with elapsed := r.elapsed + r.window.holdTicks r.index } := by
  unfold WindowRun.endPart; rw [h]

theorem endPart_tail {r : WindowRun} (h : r.part = .tail) : r.endPart = r := by
  unfold WindowRun.endPart; rw [h]

theorem strobeTick_idle {r : WindowRun} (rdyHigh : Bool) (h : r.part ≠ .strobe ∨ r.window.stretch = 0) :
    r.strobeTick rdyHigh = r := if_pos h

theorem strobeTick_high {r : WindowRun} (hpart : r.part = .strobe) (hrdy : 0 < r.window.stretch) :
    r.strobeTick true = r.endStrobe := by
  unfold WindowRun.strobeTick
  rw [if_neg (by simp [hpart]; omega), if_pos rfl]

theorem strobeTick_low {r : WindowRun} (hpart : r.part = .strobe) (hrdy : 0 < r.window.stretch) :
    r.strobeTick false = if r.stretch < r.window.stretch then
        { r with stretch := r.stretch + 1, strobeTicks := r.strobeTicks + 1 }
      else { r with part := .tail, overrun := true, elapsed := r.elapsed + r.strobeTicks } := by
  unfold WindowRun.strobeTick
  rw [if_neg (by simp [hpart]; omega), if_neg Bool.false_ne_true]

theorem endStrobe_eq (r : WindowRun) : r.endStrobe = if r.window.holdTicks r.index = 0
    then WindowRun.nextAccess { r with elapsed := r.elapsed + r.strobeTicks }
    else { r with elapsed := r.elapsed + r.strobeTicks, part := .hold } := rfl

/-- The start of the next window (08 R154). -/
theorem startWindow_eq {s : State} {k : Nat} {w : ActiveWindow} (hnext : s.sequencer.next = some k)
    (hrun : s.sequencer.run = none) (hw : s.sequencer.active[k]? = some w) : startWindow s =
      { s with sequencer := { s.sequencer with
        next := some (k + 1)
        run := if !w.muted && decide ((s.slot w.slot).state = .running) && s.sequencer.state.trusted
          then some (WindowRun.begin w) else none } } := by
  unfold startWindow
  rw [hnext, hrun]
  dsimp only
  rw [hw]

theorem trusted_iff (q : SequencerState) : q.trusted = true ↔ q = .running ∨ q = .locked := by
  cases q <;> decide

/-- What comes after an access (08 R154). -/
theorem nextAccess_eq (r : WindowRun) : r.nextAccess =
    if r.index + 1 < (if r.inPhase then r.window.inTransfers else r.window.outTransfers) then
      WindowRun.beginAccess { r with index := r.index + 1 }
    else if r.inPhase = false ∧ 0 < r.window.inTransfers then WindowRun.beginAccess { r with inPhase := true, index := 0 }
    else { r with index := r.index + 1, part := .tail } := by
  unfold WindowRun.nextAccess WindowRun.arrive Descriptor.transfers
  simp

/-- The window of a slot begins with its first access, in the in phase where it has no other (08 R154). -/
theorem begin_eq (w : ActiveWindow) : ∃ ticks, WindowRun.begin w =
    { slot := w.slot, window := w.window, index := 0, stretch := 0, overrun := false, elapsed := 0,
      inPhase := decide (w.window.outTransfers = 0 ∧ 0 < w.window.inTransfers), strobeTicks := ticks,
      part := if w.window.outTransfers = 0 ∧ w.window.inTransfers = 0 then .tail
        else if w.window.setupQ = 0 then .strobe else .setup } := by
  unfold WindowRun.begin
  by_cases hout : w.window.outTransfers = 0
  · by_cases hin : w.window.inTransfers = 0
    · rw [arrive_tail (by simp [Descriptor.transfers, hout]) (by simp [hin])]
      exact ⟨0, by simp [hout, hin]⟩
    · rw [arrive_inPhase (by simp [Descriptor.transfers, hout]) rfl (Nat.pos_of_ne_zero hin), beginAccess_eq]
      by_cases hsetup : w.window.setupQ = 0
      · exact ⟨w.window.strobeQ, by simp [hout, hin, hsetup, WindowRun.beginStrobe, Nat.pos_of_ne_zero hin]⟩
      · exact ⟨0, by simp [hout, hin, hsetup, Nat.pos_of_ne_zero hin]⟩
  · rw [arrive_access (Nat.pos_of_ne_zero hout), beginAccess_eq]
    by_cases hsetup : w.window.setupQ = 0
    · exact ⟨w.window.strobeQ, by simp [hout, hsetup, WindowRun.beginStrobe]⟩
    · exact ⟨0, by simp [hout, hsetup]⟩

/-- Settles O53. -/
theorem windowRunsAccesses : Obligations.WindowRunsAccesses := by
  intro s hlive ran
  refine ⟨fun k w hnext hrun hw => ?start, fun r hrun => ?accesses⟩
  case start =>
    intro runs
    have hruns : runs ↔ (!w.muted && decide ((s.slot w.slot).state = .running) && s.sequencer.state.trusted) = true := by
      simp only [runs, Bool.and_eq_true, Bool.not_eq_true', decide_eq_true_eq, trusted_iff, and_assoc]
    refine ⟨fun hno => ?_, fun hyes => ?_⟩
    · rw [exec_windowStart hlive, startWindow_eq hnext hrun hw, if_neg (fun h => hno (hruns.2 h))]
      rw [← hrun]
    · obtain ⟨ticks, hbegin⟩ := begin_eq w
      refine ⟨_, WindowRun.begin w, exec_windowStart hlive, ?_, ?_, ?_⟩
      · rw [startWindow_eq hnext hrun hw, if_pos (hruns.1 hyes)]
        exact decide_eq_true (begin_slot w)
      · rw [startWindow_eq hnext hrun hw, if_pos (hruns.1 hyes)]
      · rw [hbegin]
        exact ⟨rfl, rfl, rfl, rfl, rfl, rfl, rfl, rfl⟩
  case accesses =>
    intro d begun following hold struck afterStrobe
    have hbegun : ∀ elapsed index inPhase, begun { r with elapsed := elapsed, index := index, inPhase := inPhase } =
        WindowRun.beginAccess { r with elapsed := elapsed, index := index, inPhase := inPhase } := fun _ _ _ =>
      (beginAccess_eq _).symm
    have hfollowing : ∀ elapsed, following { r with elapsed := elapsed } = WindowRun.nextAccess { r with elapsed := elapsed } := by
      intro elapsed
      rw [nextAccess_eq, ← hbegun, ← hbegun]
    have hhold : hold = d.holdTicks r.index := by
      unfold Descriptor.holdTicks Descriptor.fullAt
      simp [hold]
    have hafter : afterStrobe = r.endStrobe := by
      rw [endStrobe_eq, ← hfollowing, ← hhold]
    have hended : exec .accessPartEnd s = .next { s with sequencer := { s.sequencer with run := some r.endPart } } := by
      rw [exec_accessPartEnd hlive, updRun_run _ hrun]
    have hticked : ∀ rdyHigh, ran (.strobeTickEnd rdyHigh) (r.strobeTick rdyHigh) := fun rdyHigh => by
      show exec _ s = _
      rw [exec_strobeTickEnd hlive, updRun_run _ hrun]
    refine ⟨fun hpart => ?_, fun hpart hstretch => ?_, fun hpart => ?_, fun hpart => ?_,
      fun hpart hstretch => ⟨?_, fun hmore => ?_, fun hfull => ?_⟩, ?_, ?_, fun i => ?_⟩
    · exact hended.trans (by rw [endPart_setup hpart]; rfl)
    · exact hended.trans (by rw [endPart_strobe hpart, if_pos hstretch, hafter])
    · exact hended.trans (by rw [endPart_hold hpart, ← hfollowing, ← hhold])
    · rw [hended, endPart_tail hpart, ← hrun]
    · rw [hafter, ← strobeTick_high hpart hstretch]
      exact hticked true
    · have h := hticked false
      rw [strobeTick_low hpart hstretch, if_pos hmore] at h
      exact h
    · have h := hticked false
      rw [strobeTick_low hpart hstretch, if_neg (Nat.not_lt.2 hfull)] at h
      exact h
    · simp [State.strobe, hrun]
    · simp [State.dirIn, hrun]
    · simp [State.sel, hrun, eq_comm]

end Sys2Proof.Machine
end

section
/-!
PROOF. The time a window's accesses take (07 R127 to R131, 08 R154, R155): an account of the ticks that have passed, kept by
every part of every access.
-/
namespace Sys2Proof.Machine

/-! ### A formed descriptor -/

/-- What the arithmetic of a window's run uses of a descriptor that the planner formed (07 R127, R128, R131). -/
structure Descriptor.Formed (d : Descriptor) : Prop where
  burst : d.burst = 1 ∨ d.burst = 4 ∨ d.burst = 8
  full : d.setupQ + d.strobeQ ≤ d.fullAccess
  short : d.strobeQ ≤ d.shortAccess
  outFull : d.outFull = ceilDiv d.outTransfers d.burst
  outShort : d.outShort = d.outTransfers - d.outFull
  inFull : d.inFull = ceilDiv d.inTransfers d.burst
  inShort : d.inShort = d.inTransfers - d.inFull
  length : d.length = (d.outFull + d.inFull) * d.fullAccess + (d.outShort + d.inShort) * d.shortAccess + d.stretch + d.gap

theorem le_raiseAccess (n : Nat) : n ≤ raiseAccess n := by
  unfold raiseAccess
  split <;> omega

theorem burstOf_values (code : Nat) : burstOf code = 1 ∨ burstOf code = 4 ∨ burstOf code = 8 := by
  unfold burstOf
  split
  · exact .inl rfl
  · split
    · exact .inr (.inl rfl)
    · exact .inr (.inr rfl)

theorem formed_descriptorOf (ident : List Byte) (setup strobe hold : Nat) :
    (descriptorOf ident setup strobe hold).Formed where
  burst := burstOf_values _
  full := Nat.le_trans (Nat.le_add_right _ _) (le_raiseAccess _)
  short := Nat.le_trans (Nat.le_add_right _ _) (le_raiseAccess _)
  outFull := rfl
  outShort := rfl
  inFull := rfl
  inShort := rfl
  length := rfl

/-! ### The ticks of accesses -/

/-- The ticks of the access at an index of a phase: full at the start of a burst, else short (07 R128). -/
def Descriptor.accessTicks (d : Descriptor) (index : Nat) : Nat := if d.fullAt index then d.fullAccess else d.shortAccess

/-- The ticks of the first accesses of a phase. -/
def Descriptor.ticksTo (d : Descriptor) (n : Nat) : Nat :=
  ceilDiv n d.burst * d.fullAccess + (n - ceilDiv n d.burst) * d.shortAccess

/-- The ticks of every access of the window. -/
def Descriptor.allTicks (d : Descriptor) : Nat := d.ticksTo d.outTransfers + d.ticksTo d.inTransfers

theorem Descriptor.Formed.ceilDiv_succ {d : Descriptor} (h : d.Formed) (n : Nat) : ceilDiv n d.burst ≤ n ∧
    ceilDiv (n + 1) d.burst = ceilDiv n d.burst + if d.fullAt n then 1 else 0 := by
  unfold ceilDiv Descriptor.fullAt
  rcases h.burst with hb | hb | hb <;> rw [hb] <;> simp only [decide_eq_true_eq] <;> split <;> omega

theorem Descriptor.Formed.ticksTo_succ {d : Descriptor} (h : d.Formed) (n : Nat) :
    d.ticksTo (n + 1) = d.ticksTo n + d.accessTicks n := by
  obtain ⟨hle, hnext⟩ := h.ceilDiv_succ n
  unfold Descriptor.ticksTo Descriptor.accessTicks
  rw [hnext]
  split
  · rw [Nat.add_mul, Nat.one_mul, show n + 1 - (ceilDiv n d.burst + 1) = n - ceilDiv n d.burst by omega]
    omega
  · rw [Nat.add_zero, show n + 1 - ceilDiv n d.burst = n - ceilDiv n d.burst + 1 by omega, Nat.add_mul _ 1, Nat.one_mul]
    omega

theorem Descriptor.Formed.ticksTo_mono {d : Descriptor} (h : d.Formed) {m n : Nat} (hmn : m ≤ n) :
    d.ticksTo m ≤ d.ticksTo n := by
  induction hmn with
  | refl => exact Nat.le_refl _
  | step _ ih => exact Nat.le_trans ih (by rw [Nat.succ_eq_add_one, h.ticksTo_succ]; exact Nat.le_add_right _ _)

theorem Descriptor.ticksTo_zero {d : Descriptor} (h : d.Formed) : d.ticksTo 0 = 0 := by
  unfold Descriptor.ticksTo ceilDiv
  rcases h.burst with hb | hb | hb <;> simp [hb]

/-- The window's length before its gap: every access and the stretch allowance (07 R131). -/
theorem Descriptor.Formed.length_eq {d : Descriptor} (h : d.Formed) : d.length - d.gap = d.allTicks + d.stretch ∧
    d.allTicks = (d.outFull + d.inFull) * d.fullAccess + (d.outShort + d.inShort) * d.shortAccess := by
  have hall : d.allTicks = (d.outFull + d.inFull) * d.fullAccess + (d.outShort + d.inShort) * d.shortAccess := by
    rw [h.outShort, h.inShort, h.outFull, h.inFull, Nat.add_mul, Nat.add_mul]
    unfold Descriptor.allTicks Descriptor.ticksTo
    omega
  exact ⟨by rw [h.length, hall]; omega, hall⟩

/-! ### The account of a run -/

/-- The ticks of the accesses that have ended. -/
def WindowRun.ended (r : WindowRun) : Nat :=
  (if r.inPhase then r.window.ticksTo r.window.outTransfers else 0) + r.window.ticksTo r.index

/-- The setup part of the present access, if it is a full one. -/
def WindowRun.lead (r : WindowRun) : Nat := if r.window.fullAt r.index then r.window.setupQ else 0

/-- An access is under way. -/
def WindowRun.accessing (r : WindowRun) : Prop :=
  r.index < r.window.transfers r.inPhase ∧ r.overrun = false ∧ r.stretch ≤ r.window.stretch

/-- The ticks passed by part: those of the accesses that have ended, of the present access up to here, and of the stretch
taken. -/
def WindowRun.onTime (r : WindowRun) : Prop :=
  match r.part with
  | .setup => r.accessing ∧ r.window.fullAt r.index = true ∧ r.elapsed = r.ended + r.stretch
  | .strobe => r.accessing ∧ r.elapsed + r.strobeTicks = r.ended + r.lead + r.window.strobeQ + r.stretch
  | .hold => r.accessing ∧ r.elapsed = r.ended + r.lead + r.window.strobeQ + r.stretch
  | .tail => r.stretch ≤ r.window.stretch ∧ r.elapsed ≤ r.window.allTicks + r.stretch ∧
      (r.overrun = false → r.elapsed = r.window.allTicks + r.stretch)

theorem onTime_setup {r : WindowRun} (h : r.part = .setup) : r.onTime ↔
    r.accessing ∧ r.window.fullAt r.index = true ∧ r.elapsed = r.ended + r.stretch := by
  unfold WindowRun.onTime; rw [h]

theorem onTime_strobe {r : WindowRun} (h : r.part = .strobe) : r.onTime ↔
    r.accessing ∧ r.elapsed + r.strobeTicks = r.ended + r.lead + r.window.strobeQ + r.stretch := by
  unfold WindowRun.onTime; rw [h]

theorem onTime_hold {r : WindowRun} (h : r.part = .hold) : r.onTime ↔
    r.accessing ∧ r.elapsed = r.ended + r.lead + r.window.strobeQ + r.stretch := by
  unfold WindowRun.onTime; rw [h]

theorem onTime_tail {r : WindowRun} (h : r.part = .tail) : r.onTime ↔ r.stretch ≤ r.window.stretch ∧
    r.elapsed ≤ r.window.allTicks + r.stretch ∧ (r.overrun = false → r.elapsed = r.window.allTicks + r.stretch) := by
  unfold WindowRun.onTime; rw [h]

/-- Setup, strobe and hold make up the access (08 R154). -/
theorem lead_strobe_hold {r : WindowRun} (h : r.window.Formed) :
    r.lead + r.window.strobeQ + r.window.holdTicks r.index = r.window.accessTicks r.index := by
  have hfull := h.full
  have hshort := h.short
  unfold WindowRun.lead Descriptor.holdTicks Descriptor.accessTicks
  split <;> omega

/-- The accesses up to and with the present one lie within the window's. -/
theorem ended_le {r : WindowRun} (h : r.window.Formed) (hin : r.index < r.window.transfers r.inPhase) :
    r.ended + r.window.accessTicks r.index ≤ r.window.allTicks := by
  unfold WindowRun.ended Descriptor.allTicks
  rw [Nat.add_assoc, ← h.ticksTo_succ]
  unfold Descriptor.transfers at hin
  split at hin
  · next hphase =>
    rw [if_pos hphase]
    exact Nat.add_le_add_left (h.ticksTo_mono hin) _
  · next hphase =>
    rw [if_neg hphase]
    have hmono := h.ticksTo_mono (m := r.index + 1) hin
    omega

/-! ### The account is kept -/

theorem onTime_beginStrobe {r : WindowRun} (h : r.accessing) (htime : r.elapsed = r.ended + r.lead + r.stretch) :
    r.beginStrobe.onTime := by
  refine (onTime_strobe rfl).2 ⟨h, ?_⟩
  show r.elapsed + r.window.strobeQ = r.ended + r.lead + r.window.strobeQ + r.stretch
  omega

theorem onTime_beginAccess {r : WindowRun} (h : r.accessing) (htime : r.elapsed = r.ended + r.stretch) :
    r.beginAccess.onTime := by
  rw [beginAccess_eq]
  split
  · next hfull => exact (onTime_setup rfl).2 ⟨h, (fullAt_iff _ _).2 hfull.1, htime⟩
  · next hnot =>
    refine onTime_beginStrobe h ?_
    have hlead : r.lead = 0 := by
      unfold WindowRun.lead
      split
      · next hfull => exact Classical.not_not.1 fun hne => hnot ⟨(fullAt_iff _ _).1 hfull, hne⟩
      · rfl
    omega

/-- What comes at a place of the window is on time when the accesses before it have ended on time. -/
theorem onTime_arrive {r : WindowRun} (hd : r.window.Formed) (hover : r.overrun = false)
    (hstretch : r.stretch ≤ r.window.stretch) (hindex : r.index ≤ r.window.transfers r.inPhase)
    (htime : r.elapsed = r.ended + r.stretch) : r.arrive.onTime := by
  by_cases hmore : r.index < r.window.transfers r.inPhase
  · rw [arrive_access hmore]
    exact onTime_beginAccess ⟨hmore, hover, hstretch⟩ htime
  · have hlast : r.index = r.window.transfers r.inPhase := by omega
    by_cases hin : r.inPhase = false ∧ 0 < r.window.inTransfers
    · rw [arrive_inPhase hmore hin.1 hin.2]
      refine onTime_beginAccess ⟨hin.2, hover, hstretch⟩ ?_
      rw [htime]
      show r.ended + r.stretch = r.window.ticksTo r.window.outTransfers + r.window.ticksTo 0 + r.stretch
      unfold WindowRun.ended
      rw [hlast, hin.1, Descriptor.ticksTo_zero hd]
      simp [Descriptor.transfers]
    · rw [arrive_tail hmore hin]
      have hall : r.ended = r.window.allTicks := by
        unfold WindowRun.ended Descriptor.allTicks
        rw [hlast]
        unfold Descriptor.transfers
        cases hphase : r.inPhase with
        | true => simp
        | false =>
          have hnone : r.window.inTransfers = 0 := Nat.eq_zero_of_not_pos fun hpos => hin ⟨hphase, hpos⟩
          simp [hnone, Descriptor.ticksTo_zero hd]
      exact (onTime_tail rfl).2 ⟨hstretch, by rw [← hall]; exact Nat.le_of_eq htime, fun _ => by rw [← hall]; exact htime⟩

/-- An access ends. -/
theorem onTime_nextAccess {r : WindowRun} (hd : r.window.Formed) (h : r.accessing)
    (htime : r.elapsed = r.ended + r.window.accessTicks r.index + r.stretch) : r.nextAccess.onTime := by
  obtain ⟨hindex, hover, hstretch⟩ := h
  refine onTime_arrive (r := { r with index := r.index + 1 }) hd hover hstretch hindex ?_
  show r.elapsed = (if r.inPhase then r.window.ticksTo r.window.outTransfers else 0) + r.window.ticksTo (r.index + 1) +
    r.stretch
  rw [htime, hd.ticksTo_succ]
  unfold WindowRun.ended
  omega

theorem onTime_endStrobe {r : WindowRun} (hd : r.window.Formed) (hpart : r.part = .strobe) (h : r.onTime) :
    r.endStrobe.onTime := by
  obtain ⟨haccess, htime⟩ := (onTime_strobe hpart).1 h
  rw [endStrobe_eq]
  split
  · next hnone =>
    have hwhole := lead_strobe_hold (r := r) hd
    refine onTime_nextAccess (r := { r with elapsed := r.elapsed + r.strobeTicks }) hd haccess ?_
    show r.elapsed + r.strobeTicks = r.ended + r.window.accessTicks r.index + r.stretch
    omega
  · exact (onTime_hold rfl).2 ⟨haccess, htime⟩

theorem onTime_endPart {r : WindowRun} (hd : r.window.Formed) (h : r.onTime) : r.endPart.onTime := by
  cases hpart : r.part with
  | setup =>
    obtain ⟨haccess, hfull, htime⟩ := (onTime_setup hpart).1 h
    rw [endPart_setup hpart]
    refine onTime_beginStrobe (r := { r with elapsed := r.elapsed + r.window.setupQ }) haccess ?_
    show r.elapsed + r.window.setupQ = r.ended + (if r.window.fullAt r.index then r.window.setupQ else 0) + r.stretch
    rw [if_pos hfull]
    omega
  | strobe =>
    rw [endPart_strobe hpart]
    split
    · exact onTime_endStrobe hd hpart h
    · exact h
  | hold =>
    obtain ⟨haccess, htime⟩ := (onTime_hold hpart).1 h
    have hwhole := lead_strobe_hold (r := r) hd
    rw [endPart_hold hpart]
    refine onTime_nextAccess (r := { r with elapsed := r.elapsed + r.window.holdTicks r.index }) hd haccess ?_
    show r.elapsed + r.window.holdTicks r.index = r.ended + r.window.accessTicks r.index + r.stretch
    omega
  | tail =>
    rw [endPart_tail hpart]
    exact h

theorem onTime_strobeTick {r : WindowRun} (hd : r.window.Formed) (rdyHigh : Bool) (h : r.onTime) :
    (r.strobeTick rdyHigh).onTime := by
  by_cases hidle : r.part ≠ .strobe ∨ r.window.stretch = 0
  · rw [strobeTick_idle rdyHigh hidle]
    exact h
  · obtain ⟨hpart, hrdy⟩ := not_or.1 hidle
    have hpart := Classical.not_not.1 hpart
    have hrdy := Nat.pos_of_ne_zero hrdy
    cases rdyHigh with
    | true =>
      rw [strobeTick_high hpart hrdy]
      exact onTime_endStrobe hd hpart h
    | false =>
      obtain ⟨⟨hindex, hover, hstretch⟩, htime⟩ := (onTime_strobe hpart).1 h
      rw [strobeTick_low hpart hrdy]
      split
      · next hmore =>
        refine (onTime_strobe (r := { r with stretch := r.stretch + 1, strobeTicks := r.strobeTicks + 1 }) hpart).2
          ⟨⟨hindex, hover, hmore⟩, ?_⟩
        show r.elapsed + (r.strobeTicks + 1) = r.ended + r.lead + r.window.strobeQ + (r.stretch + 1)
        omega
      · have hwhole := lead_strobe_hold (r := r) hd
        have hinside := ended_le hd hindex
        refine (onTime_tail rfl).2 ⟨hstretch, ?_, fun hno => (nomatch hno)⟩
        show r.elapsed + r.strobeTicks ≤ r.window.allTicks + r.stretch
        omega

theorem onTime_begin {w : ActiveWindow} (hd : w.window.Formed) : (WindowRun.begin w).onTime := by
  unfold WindowRun.begin
  refine onTime_arrive hd rfl (Nat.zero_le _) (Nat.zero_le _) ?_
  show 0 = (0 + w.window.ticksTo 0) + 0
  rw [Descriptor.ticksTo_zero hd]

/-! ### The window ends on time -/

theorem arrive_window (r : WindowRun) : r.arrive.window = r.window := by
  unfold WindowRun.arrive WindowRun.beginAccess WindowRun.beginStrobe
  split
  · split <;> rfl
  · split
    · dsimp only; split <;> rfl
    · rfl

theorem endStrobe_window (r : WindowRun) : r.endStrobe.window = r.window := by
  rw [endStrobe_eq]
  split
  · exact arrive_window _
  · rfl

theorem endPart_window (r : WindowRun) : r.endPart.window = r.window := by
  unfold WindowRun.endPart
  split
  · rfl
  · split
    · exact endStrobe_window r
    · rfl
  · exact arrive_window _
  · rfl

theorem strobeTick_window (rdyHigh : Bool) (r : WindowRun) : (r.strobeTick rdyHigh).window = r.window := by
  unfold WindowRun.strobeTick
  split
  · rfl
  · split
    · exact endStrobe_window r
    · split <;> rfl

/-- A state runs a slot's window on time. -/
def State.runsOnTime (s : State) (i : SlotId) (d : Descriptor) : Prop :=
  s.inReset = false ∧ ∃ r, s.sequencer.run = some r ∧ r.slot = i ∧ r.window = d ∧ r.onTime

/-- The accesses of a window, whatever the card answers at RDY. -/
theorem runsOnTime_execAll {i : SlotId} {d : Descriptor} (hd : d.Formed) (commands : List Instr) : ∀ s t : State,
    (∀ c ∈ commands, c = .accessPartEnd ∨ c = .strobeTickEnd true ∨ c = .strobeTickEnd false) →
    s.runsOnTime i d → execAll commands s = .next t → t.runsOnTime i d := by
  induction commands with
  | nil =>
    intro s t _ hs ht
    obtain rfl : s = t := by
      rw [execAll] at ht
      exact Host.Outcome.next.inj ht
    exact hs
  | cons c rest ih =>
    intro s t hcommands ⟨hlive, r, hrun, hslot, hwindow, hr⟩ ht
    obtain ⟨hc, hrest⟩ := List.forall_mem_cons.1 hcommands
    have hformed : r.window.Formed := hwindow ▸ hd
    have hstep : ∃ f : WindowRun → WindowRun, exec c s = .next (updRun f s) ∧ (f r).slot = r.slot ∧
        (f r).window = r.window ∧ (f r).onTime := by
      rcases hc with rfl | rfl | rfl
      · exact ⟨_, exec_accessPartEnd hlive, endPart_slot r, endPart_window r, onTime_endPart hformed hr⟩
      · exact ⟨_, exec_strobeTickEnd hlive true, strobeTick_slot true r, strobeTick_window true r,
          onTime_strobeTick hformed true hr⟩
      · exact ⟨_, exec_strobeTickEnd hlive false, strobeTick_slot false r, strobeTick_window false r,
          onTime_strobeTick hformed false hr⟩
    obtain ⟨f, hexec, hfslot, hfwindow, hftime⟩ := hstep
    rw [execAll_cons hexec] at ht
    refine ih (updRun f s) t hrest ⟨hlive, f r, ?_, hfslot.trans hslot, hfwindow.trans hwindow, hftime⟩ ht
    rw [updRun_run f hrun]

/-- Settles O54: `WindowRun.onTime` at the window's start and after every part. -/
theorem windowEndsOnTime : Obligations.WindowEndsOnTime := by
  intro s t w k ident setup strobe hold commands hlive hnext hrun hw hmuted hstate htrusted hformed hcommands hexec d
    accesses
  have hd : d.Formed := by
    show w.window.Formed
    rw [hformed]
    exact formed_descriptorOf ident setup strobe hold
  obtain ⟨hlength, hall⟩ := hd.length_eq
  have hstart : (startWindow s).runsOnTime w.slot d := by
    rw [startWindow_eq hnext hrun hw, if_pos (by simp [hmuted, hstate, htrusted])]
    exact ⟨hlive, _, rfl, begin_slot w, arrive_window _, onTime_begin hd⟩
  rw [execAll_cons (exec_windowStart hlive)] at hexec
  obtain ⟨-, r, hr, hslot, hwindow, htime⟩ := runsOnTime_execAll hd commands _ t hcommands hstart hexec
  have hbound : r.stretch ≤ d.stretch ∧ r.elapsed + (if r.part = .strobe then r.strobeTicks else 0) ≤
      d.allTicks + d.stretch ∧ (r.part = .tail → r.overrun = false → r.elapsed = d.allTicks + r.stretch) := by
    have hrd : r.window.Formed := hwindow ▸ hd
    have hwhole := lead_strobe_hold (r := r) hrd
    rw [← hwindow]
    cases hpart : r.part with
    | setup =>
      obtain ⟨⟨hindex, -, hstretch⟩, -, helapsed⟩ := (onTime_setup hpart).1 htime
      have hinside := ended_le hrd hindex
      exact ⟨hstretch, by rw [if_neg (by decide)]; omega, fun h => (nomatch h)⟩
    | strobe =>
      obtain ⟨⟨hindex, -, hstretch⟩, helapsed⟩ := (onTime_strobe hpart).1 htime
      have hinside := ended_le hrd hindex
      exact ⟨hstretch, by rw [if_pos rfl]; omega, fun h => (nomatch h)⟩
    | hold =>
      obtain ⟨⟨hindex, -, hstretch⟩, helapsed⟩ := (onTime_hold hpart).1 htime
      have hinside := ended_le hrd hindex
      exact ⟨hstretch, by rw [if_neg (by decide)]; omega, fun h => (nomatch h)⟩
    | tail =>
      obtain ⟨hstretch, hmost, hexact⟩ := (onTime_tail hpart).1 htime
      exact ⟨hstretch, by rw [if_neg (by decide)]; omega, fun _ => hexact⟩
  obtain ⟨hstretch, hmost, hexact⟩ := hbound
  refine ⟨r, hr, ?_, hstretch, by rw [hlength]; exact hmost, by rw [hlength, hall], fun hpart hover => ?_⟩
  · unfold State.sel
    rw [hr]
    exact decide_eq_true hslot
  · rw [hexact hpart hover, hall]

end Sys2Proof.Machine
end

section
/-!
PROOF. From a card's declarations to its window descriptor (07 R122 to R133).
-/
namespace Sys2Proof.Machine

theorem timingCode_none_iff (need : Nat) : timingCode need = none ↔ 568 < need := by
  unfold timingCode
  split
  · simp; omega
  · split
    · simp; omega
    · simp; omega

/-- A code's value covers the need, and no other of the 128 values that covers it is less (07 R125, R126). -/
theorem timingCode_least {need code : Nat} (h : timingCode need = some code) : code ≤ 127 ∧ need ≤ quantized code ∧
    quantized code ≤ 568 ∧ ∀ other ≤ 127, need ≤ quantized other → quantized code ≤ quantized other := by
  unfold timingCode at h
  split at h
  · obtain rfl : need = code := Option.some.inj h
    have hquantized : quantized need = need := if_pos ‹_›
    rw [hquantized]
    exact ⟨by omega, Nat.le_refl _, by omega, fun other _ hother => hother⟩
  · split at h
    · obtain rfl : 64 + ceilDiv (need - 64) 8 = code := Option.some.inj h
      unfold quantized ceilDiv
      refine ⟨by omega, by split <;> omega, by split <;> omega, fun other hother hcovers => ?_⟩
      split at hcovers <;> split <;> omega
    · cases h

theorem strobeNeed_eq (ns : Nat) : strobeNeed ns = max 1 (ticksOf ns) := by
  unfold strobeNeed
  split <;> omega

theorem raiseAccess_eq (ticks : Nat) : raiseAccess ticks = max 3 ticks := by
  unfold raiseAccess
  split <;> omega

theorem gapOf_eq (floatTicks inTransfers : Nat) :
    gapOf floatTicks inTransfers = if inTransfers = 0 then 2 else max 2 floatTicks := by
  unfold gapOf
  rw [Nat.max_comm]

theorem widthOf_eq {code : Nat} (h : code < 3) : widthOf code = [1, 2, 4].getD code 0 :=
  (by decide : ∀ code < 3, widthOf code = [1, 2, 4].getD code 0) code h

theorem burstOf_eq {code : Nat} (h : code < 3) : burstOf code = [1, 4, 8].getD code 0 :=
  (by decide : ∀ code < 3, burstOf code = [1, 4, 8].getD code 0) code h

theorem windowOf_none_iff (ident : List Byte) : windowOf ident = none ↔ 568 < ticksOf (identSetup ident) ∨
    568 < strobeNeed (identStrobe ident) ∨ 568 < ticksOf (identHold ident) := by
  rw [← timingCode_none_iff, ← timingCode_none_iff, ← timingCode_none_iff]
  unfold windowOf
  cases timingCode (ticksOf (identSetup ident)) <;> cases timingCode (strobeNeed (identStrobe ident)) <;>
    cases timingCode (ticksOf (identHold ident)) <;> simp

theorem windowOf_some {ident : List Byte} {d : Descriptor} {flags : ClampFlags} (h : windowOf ident = some (d, flags)) :
    ∃ setup strobe hold, timingCode (ticksOf (identSetup ident)) = some setup ∧
      timingCode (strobeNeed (identStrobe ident)) = some strobe ∧ timingCode (ticksOf (identHold ident)) = some hold ∧
      d = descriptorOf ident setup strobe hold ∧ flags = clampFlagsOf ident d := by
  unfold windowOf at h
  split at h
  · next setup strobe hold hsetup hstrobe hhold =>
    obtain ⟨rfl, rfl⟩ := Prod.mk.inj (Option.some.inj h)
    exact ⟨setup, strobe, hold, hsetup, hstrobe, hhold, rfl, rfl⟩
  · cases h

theorem ceilDiv_le {n b : Nat} (hb : b = 1 ∨ b = 4 ∨ b = 8) : ceilDiv n b ≤ n := by
  unfold ceilDiv
  rcases hb with rfl | rfl | rfl <;> omega

/-- Settles O56. -/
theorem windowFollowsDeclarations : Obligations.WindowFollowsDeclarations := by
  refine ⟨fun ident => ?_, fun length tolerance => ⟨rfl, rfl, rfl⟩⟩
  intro ticks strobe value holds width burst outT inT
  have hticks : ∀ place, ticksOf (fieldAt ident place 2) = ticks place := fun _ => rfl
  have hstrobe : strobeNeed (identStrobe ident) = strobe := strobeNeed_eq _
  refine ⟨?_, fun d flags hwindow hwidth hburst => ?_⟩
  · rw [windowOf_none_iff, hstrobe]
    rfl
  · obtain ⟨setupCode, strobeCode, holdCode, hsetup, hstrobeCode, hhold, rfl, rfl⟩ := windowOf_some hwindow
    have hholds : ∀ {need code : Nat}, timingCode need = some code → holds need code (quantized code) := by
      intro need code hcode
      obtain ⟨hcodes, hcovers, hmost, hleast⟩ := timingCode_least hcode
      exact ⟨hcodes, rfl, hcovers, hmost, hleast⟩
    rw [hstrobe] at hstrobeCode
    have hwidthEq : widthOf (identWidthCode ident) = width := widthOf_eq hwidth
    have hburstEq : burstOf (identBurstCode ident) = burst := burstOf_eq hburst
    have hout : ceilDiv (identOut ident) (widthOf (identWidthCode ident)) = outT := by rw [hwidthEq]; rfl
    have hin : ceilDiv (identIn ident) (widthOf (identWidthCode ident)) = inT := by rw [hwidthEq]; rfl
    have hfull : ∀ n, ceilDiv n (burstOf (identBurstCode ident)) + (n - ceilDiv n (burstOf (identBurstCode ident))) = n :=
      fun n => Nat.add_sub_cancel' (ceilDiv_le (burstOf_values _))
    refine ⟨hholds hsetup, hholds hstrobeCode, hholds hhold, hwidthEq, hburstEq, hout, hin, raiseAccess_eq _, raiseAccess_eq _,
      ?_, ?_, ?_, ?_, Nat.min_comm _ _, ?_, rfl, rfl, rfl, ?_⟩
    · show ceilDiv (ceilDiv _ _) (burstOf _) = _
      rw [hout, hburstEq]
      rfl
    · rw [← hout]; exact hfull _
    · show ceilDiv (ceilDiv _ _) (burstOf _) = _
      rw [hin, hburstEq]
      rfl
    · rw [← hin]; exact hfull _
    · show gapOf _ (ceilDiv _ _) = _
      rw [hin, gapOf_eq]
      rfl
    · exact (Bool.decide_or _ _).symm

end Sys2Proof.Machine
end

section
/-!
PROOF. The taking of one job completion, and what it makes of a transfer from a pinned set (02 R47, 06 R108, R114 to
R118).
-/
namespace Sys2Proof.Machine

/-! ### Taking a completion -/

/-- The slot with the oldest completion taken out of its inbox. -/
def Slot.withCompletions (c : Slot) (rest : List Completion) : Slot :=
  { c with inbox := { c.inbox with completions := rest } }

theorem exec_completion {s : State} {i : SlotId} {a : Completion} {rest : List Completion} (hlive : s.inReset = false)
    (hc : (s.slot i).inbox.completions = a :: rest) : exec (.jobCompletionTaken i) s =
      .next (transmit (takeCompletion i a (s.setSlot i ((s.slot i).withCompletions rest)))) := by
  show whenLive (takeNextCompletion i) s = _
  rw [whenLive, if_neg (by simp [hlive]), takeNextCompletion, hc]
  rfl

/-- What a completion leads to is shown of the state that the slot's action leaves. -/
theorem completion_answers {s t : State} {i : SlotId} {a : Completion} {rest : List Completion} {p : State → Prop}
    (hlive : s.inReset = false) (hc : (s.slot i).inbox.completions = a :: rest)
    (ht : takeCompletion i a (s.setSlot i ((s.slot i).withCompletions rest)) = t) (hp : p t) :
    ∃ t, exec (.jobCompletionTaken i) s = .next (transmit t) ∧ t.link.replies = s.link.replies ∧ p t := by
  have hquiet := quiet_takeCompletion i a (s.setSlot i ((s.slot i).withCompletions rest))
  rw [ht] at hquiet
  exact ⟨t, by rw [exec_completion hlive hc, ht], hquiet.replies, hp⟩

/-- A completion that the slot's state does nothing with is discarded. -/
theorem completion_discarded {s : State} {i : SlotId} {a : Completion} {rest : List Completion}
    (hlive : s.inReset = false) (hc : (s.slot i).inbox.completions = a :: rest)
    (hsame : takeCompletion i a (s.setSlot i ((s.slot i).withCompletions rest)) =
      s.setSlot i ((s.slot i).withCompletions rest)) :
    exec (.jobCompletionTaken i) s = .next (transmit (s.setSlot i ((s.slot i).withCompletions rest))) := by
  rw [exec_completion hlive hc, hsame]

/-- A job issued after a write to the slot's record: nothing else is touched. -/
theorem issueJob_account (i : SlotId) (c : Slot) (job : Transaction) (s : State) :
    { issueJob i job (s.setSlot i c) with engine := s.engine } = s.setSlot i c ∧
      SlotFrame i s (issueJob i job (s.setSlot i c)) ∧
      { slot := i, transaction := job } ∈ (issueJob i job (s.setSlot i c)).engine.jobs :=
  ⟨issueJob_local i job (s.setSlot i c), (slotFrame_setSlot i s c).trans (slotFrame_issueJob i job _),
    mem_issueJob_jobs i job _⟩

/-! ### The transfer -/

theorem takeCompletion_transfer {i : SlotId} {n : Fin 8} {s : State} (hst : (s.slot i).state = .configuring)
    (hpin : (s.slot i).pin = some n) (a : Completion) : takeCompletion i a s = takeInTransfer i n a s := by
  rw [takeCompletion, hst]
  dsimp only
  rw [hpin]

theorem takeInTransfer_aborted {a : Completion} (h : a.outcome = .aborted) (i : SlotId) (n : Fin 8) (s : State) :
    takeInTransfer i n a s = s := by
  unfold takeInTransfer
  rw [h]
  cases a.kind <;> rfl

/-- The job that follows a block: the next block, or the COMMIT once every word is written (06 R114). -/
theorem nextBlock_issues (i : SlotId) (n : Fin 8) (s : State) : nextBlock i n s =
    issueJob i (if (s.slot i).transferCount < s.sets[n].length then
      .blockWrite n (s.slot i).transferCount (min (s.slot i).configBlock (s.sets[n].length - (s.slot i).transferCount))
      else .commit s.sets[n].length) s := by
  unfold nextBlock
  dsimp only
  split <;> rfl

theorem takeInTransfer_block {i : SlotId} {n : Fin 8} {a : Completion} (hkind : a.kind = .blockWrite)
    (hdone : a.outcome = .done) (s : State) (c : Slot) : takeInTransfer i n a (s.setSlot i c) =
      nextBlock i n (s.setSlot i { c with transferCount := c.transferCount + a.words }) := by
  unfold takeInTransfer
  rw [hkind, hdone]
  dsimp only
  rw [advanceBlock, updSlot_eq, slot_setSlot_self, setSlot_setSlot]

/-- The end of a transfer at its COMMIT records every word and releases the pin (06 R115, R116). -/
theorem endCommit_eq {i : SlotId} {n : Fin 8} {s : State} {c : Slot} (hpin : c.pin = some n) :
    endCommit i n (s.setSlot i c) =
      { s.setSlot i { c with wordsWritten := s.sets[n].length, residual := 0, pin := none } with
        sets := s.sets.set n { s.sets[n] with pins := s.sets[n].pins - 1 } } := by
  unfold endCommit endTransfer
  rw [slot_setSlot_self, hpin]
  dsimp only
  rw [updSlot_eq, slot_setSlot_self, setSlot_setSlot]
  simp [State.setSlot]

/-- Insertion writes the slot's record by its transition alone. -/
theorem slot_insertWindow (i : SlotId) (s : State) : ∃ st r, (st = .joining ∨ st = .roomWait) ∧
    (insertWindow i s).slot i = (s.slot i).enter st r := by
  unfold insertWindow
  split
  · exact ⟨.joining, .none, .inl rfl, by rw [joinPlan, slot_transition_self]; rfl⟩
  · exact ⟨.roomWait, .noRoom, .inr rfl, by rw [slot_transition_self]; rfl⟩

/-- Settles O48. -/
theorem transferWritesBlocksAndCommits : Obligations.TransferWritesBlocksAndCommits := by
  intro s i n a rest hlive hc hst hpin c u length count answers issues unpinned ended
  have htake : ∀ t, takeInTransfer i n a u = t → takeCompletion i a u = t := fun t ht => by
    rw [takeCompletion_transfer (n := n) (by rw [slot_setSlot_self]; exact hst) (by rw [slot_setSlot_self]; exact hpin)]
    exact ht
  have hanswers : ∀ {t} {p : State → Prop}, takeInTransfer i n a u = t → p t → answers p := fun ht hp =>
    completion_answers hlive hc (htake _ ht) hp
  have hended : endCommit i n u = ended := endCommit_eq (s := s) (c := c) hpin
  have hslot : u.slot i = c := slot_setSlot_self s i c
  refine ⟨fun hkind hdone => ?block, fun hkind => ⟨fun ho => ?accepted, fun ho => ?rejected, fun ho => ?commitFails⟩,
    fun hkind ho => ?blockFails, fun ho => ?aborted⟩
  case block =>
    have hnext : takeInTransfer i n a u = issueJob i (if count < length then
        .blockWrite n count (min c.configBlock (length - count)) else .commit length)
        (s.setSlot i { c with transferCount := count }) := by
      rw [takeInTransfer_block (s := s) (c := c) hkind hdone, nextBlock_issues, slot_setSlot_self]
      rfl
    refine ⟨fun hmore => ?_, fun hall => ?_⟩
    · rw [if_pos hmore] at hnext
      exact hanswers hnext (issueJob_account i _ _ s)
    · rw [if_neg (Nat.not_lt.2 hall)] at hnext
      exact hanswers hnext (issueJob_account i _ _ s)
  case accepted =>
    obtain ⟨st, r, -, hins⟩ := slot_insertWindow i ended
    refine hanswers (t := insertWindow i ended) (by unfold takeInTransfer; rw [hkind, ho, ← hended])
      ⟨inserts_insertWindow i ended, ?_, ?_⟩
    · rw [insertWindow_sets]
      simp [ended]
    · have hend : ended.slot i = { c with wordsWritten := length, residual := 0, pin := none } :=
        slot_setSlot_self s i _
      rw [hins, hend]
      exact ⟨rfl, rfl, rfl⟩
  case rejected =>
    exact hanswers (t := takeFault i .configRejected ended) (by unfold takeInTransfer; rw [hkind, ho, ← hended])
      (faults_takeFault i _ ended)
  case commitFails =>
    refine hanswers (t := takeFault i .configWrite ended) ?_ (faults_takeFault i _ ended)
    rcases ho with ho | ho <;> (unfold takeInTransfer; rw [hkind, ho, ← hended])
  case blockFails =>
    have hfaults := faults_takeFault i .configWrite u
    have hcut := hfaults.poweredDown.cut n (by rw [hslot]; exact hpin)
    rw [hslot] at hcut
    refine hanswers (t := takeFault i .configWrite u) ?_ ⟨hfaults, hcut⟩
    rcases ho with ho | ho <;> (unfold takeInTransfer; rw [hkind, ho])
  case aborted =>
    exact completion_discarded hlive hc (htake _ (takeInTransfer_aborted ho i n u))

end Sys2Proof.Machine
end

section
/-!
PROOF. The end of the ready wait and the wait for a parameter set (05 R102, R103, 06 R112 to R114).
-/
namespace Sys2Proof.Machine

/-! ### Accounts measured from before the withdrawal of the slot's job -/

theorem startFields_withdrawJob (i : SlotId) (s : State) :
    ((withdrawJob i s).slot i).startFields = (s.slot i).startFields := by
  obtain ⟨q, hq⟩ := withdrawJob_slot i s
  rw [hq]
  rfl

theorem keeps_withdrawJob (i : SlotId) (s : State) : Keeps i s (withdrawJob i s) := by
  obtain ⟨q, hq⟩ := withdrawJob_slot i s
  constructor <;> rw [hq]

theorem Entered.from_withdrawn {i : SlotId} {st : SlotState} {r : Reason} {k : Nat} {s t : State}
    (h : Entered i st r k (withdrawJob i s) t) : Entered i st r k s t :=
  h.of_start (startFields_withdrawJob i s) (by rw [withdrawJob_recorder])

theorem Inserts.from_withdrawn {i : SlotId} {s t : State} (h : Inserts i (withdrawJob i s) t) : Inserts i s t where
  frame := (slotFrame_withdrawJob i s).trans h.frame
  keeps := (keeps_withdrawJob i s).trans h.keeps
  joins rank window hmode hrank hwindow hfits := by
    have hjoins := h.joins rank window
    rw [withdrawJob_planner, (keeps_withdrawJob i s).screening] at hjoins
    obtain ⟨hentered, hplanner⟩ := hjoins hmode hrank hwindow hfits
    exact ⟨hentered.from_withdrawn, hplanner⟩
  waits hw := by
    have hwaits := h.waits
    rw [withdrawJob_planner, (keeps_withdrawJob i s).screening] at hwaits
    obtain ⟨hentered, hplanner⟩ := hwaits hw
    exact ⟨hentered.from_withdrawn, hplanner⟩

/-! ### CONFIGURING -/

/-- CONFIGURING as the ready wait's end enters it, its poll withdrawn (06 R113, log 34). -/
def toConfiguring (i : SlotId) (s : State) : State := transition i .configuring .none (withdrawJob i s)

theorem takeReady_configures {i : SlotId} {n : Fin 8} {s : State} (h : (s.slot i).screening.paramSet = some n) :
    takeReady i s = examineSet i n (toConfiguring i s) := by
  unfold takeReady
  dsimp only
  rw [h]
  rfl

theorem takeReady_inserts {i : SlotId} {s : State} (h : (s.slot i).screening.paramSet = none) :
    takeReady i s = insertWindow i (withdrawJob i s) := by
  unfold takeReady
  dsimp only
  rw [h]

theorem slot_toConfiguring (i : SlotId) (s : State) : ∃ q, (toConfiguring i s).slot i =
    ((s.slot i).withCompletions q).enter .configuring .none := by
  obtain ⟨q, hq⟩ := withdrawJob_slot i s
  exact ⟨q, by rw [toConfiguring, slot_transition_self, hq]; rfl⟩

theorem entered_toConfiguring (i : SlotId) (s : State) : Entered i .configuring .none 1 s (toConfiguring i s) := by
  have hentered : Entered i .configuring .none 1 (withdrawJob i s) (toConfiguring i s) := entered_transition rfl
  exact hentered.from_withdrawn

theorem slotFrame_toConfiguring (i : SlotId) (s : State) : SlotFrame i s (toConfiguring i s) :=
  (slotFrame_withdrawJob i s).trans (slotFrame_transition i _ _ _)

theorem keeps_toConfiguring (i : SlotId) (s : State) : Keeps i s (toConfiguring i s) :=
  (keeps_withdrawJob i s).trans (keeps_transition i _ _ _ rfl)

theorem toConfiguring_sets (i : SlotId) (s : State) : (toConfiguring i s).sets = s.sets := by
  rw [toConfiguring, transition_sets, withdrawJob_sets]

theorem toConfiguring_reading {i : SlotId} {s : State} {cur : CurrentJob} (hc : s.engine.current = some cur)
    (hi : cur.job.slot = i) (hheld : cur.held = false) :
    (toConfiguring i s).engine.current = some (cur.requestAbort s.sets) := by
  rw [toConfiguring, transition_engine, withdrawJob_reading hc hi hheld]

/-- A fault of a slot that has just entered CONFIGURING from READY_WAIT counts both transitions. -/
theorem Faults.from_configuring {i : SlotId} {code : Reason} {s t : State}
    (h : Faults i code 1 (toConfiguring i s) t) (hst : (s.slot i).state = .readyWait) : Faults i code 2 s t := by
  obtain ⟨q, hq⟩ := slot_toConfiguring i s
  have hkeeps := keeps_toConfiguring i s
  have hbring : (s.slot i).state.inBringUp = SlotState.configuring.inBringUp := by rw [hst]; rfl
  have htimes : (toConfiguring i s).times = s.times := (slotFrame_toConfiguring i s).times
  have hdown := h.poweredDown
  refine ⟨(slotFrame_toConfiguring i s).trans h.frame, ?_, ?_, ?_, ?_, fun hr hc => ?_, fun hr => ?_⟩
  · refine ⟨hdown.grant, hdown.pin, hdown.threshold, hdown.planned, hdown.muted, hdown.sel, hdown.powerQueue,
      hdown.roomQueue, hdown.queued, hdown.deferred, hdown.aborted, fun cur hcur hi hheld => ?_, fun n hn => ?_,
      fun hn => ?_⟩
    · have hread := hdown.reading _ (toConfiguring_reading hcur hi hheld) (by rw [requestAbort_job]; exact hi)
        (by rw [requestAbort_held]; exact hheld)
      rwa [requestAbort_again] at hread
    · have hcut := hdown.cut n (by rw [hq]; exact hn)
      rw [toConfiguring_sets, hq] at hcut
      exact hcut
    · have huncut := hdown.uncut (by rw [hq]; exact hn)
      rw [hq] at huncut
      exact huncut
  · rw [h.faultCount, hkeeps.faultCount]
  · rw [h.allowance, hkeeps.allowance]
  · rw [h.screening, hkeeps.screening]
  · obtain ⟨hentered, htimer⟩ := h.retried hr (by rw [htimes]; exact hc)
    exact ⟨(entered_toConfiguring i s).andThen hentered hbring, by rw [htimer, htimes]⟩
  · exact (entered_toConfiguring i s).andThen (h.rested (by rw [htimes]; exact hr)) hbring

/-- A reason written after an entry takes the entry's place. -/
theorem Entered.rewritten {i : SlotId} {st : SlotState} {r : Reason} {k : Nat} {s t : State} (h : Entered i st r k s t)
    (r' : Reason) : Entered i st r' k s (writeReason i r' t) := by
  refine ⟨?_, ?_, ?_, ?_, ?_, postSlot_posted i _, ?_, ?_, ?_, ?_⟩
  · rw [slot_writeReason_self]; exact h.state
  · rw [slot_writeReason_self]
  · rw [slot_writeReason_self]; exact h.lines
  · rw [slot_writeReason_self]; exact h.timers
  · rw [slot_writeReason_self]; exact h.transitions
  · rw [writeReason_recorder]; exact h.gate
  · rw [slot_writeReason_self]; exact h.early
  · rw [slot_writeReason_self]; exact h.late
  · rw [slot_writeReason_self]; exact h.traceRef

theorem StartsTransfer.from_configuring {i : SlotId} {n : Fin 8} {s t : State}
    (h : StartsTransfer i n (toConfiguring i s) t) : StartsTransfer i n s t := by
  obtain ⟨q, hq⟩ := slot_toConfiguring i s
  have hpin := h.pin
  have hissued := h.issued
  rw [toConfiguring_sets] at hpin hissued
  rw [hq] at hissued
  exact ⟨(slotFrame_toConfiguring i s).trans h.frame, (keeps_toConfiguring i s).trans h.keeps, h.state, hpin, h.count,
    hissued⟩

/-! ### The examination of a set (06 R113) -/

theorem examineSet_waits {i : SlotId} {n : Fin 8} {s : State} (hset : s.sets[n].state ≠ .ready)
    (hr : (s.slot i).reason ≠ .paramsWait) : examineSet i n s = writeReason i .paramsWait s := by
  rw [examineSet, if_neg hset, if_neg hr]

theorem examineSet_large {i : SlotId} {n : Fin 8} {s : State} (hset : s.sets[n].state = .ready)
    (hl : (s.slot i).configArea < s.sets[n].length) : examineSet i n s = takeFault i .configTooLarge s := by
  rw [examineSet, if_pos hset, if_pos hl]

theorem examineSet_starts {i : SlotId} {n : Fin 8} {s : State} (hset : s.sets[n].state = .ready)
    (hl : s.sets[n].length ≤ (s.slot i).configArea) : examineSet i n s = startTransfer i n s := by
  rw [examineSet, if_pos hset, if_neg (Nat.not_lt.2 hl)]

/-- A transfer that a slot waiting for its set starts withdraws the reason with a notice (06 R113). -/
theorem startTransfer_waited {i : SlotId} {n : Fin 8} {s : State} (hr : (s.slot i).reason = .paramsWait) :
    (startTransfer i n s).posted i ∧
      ((startTransfer i n s).slot i).transitions = (s.slot i).transitions := by
  have hpinned : ∀ p : State, p.slot i = { s.slot i with pin := some n, transferCount := 0 } →
      (nextBlock i n (writeReason i .none p)).posted i ∧
        ((nextBlock i n (writeReason i .none p)).slot i).transitions = (s.slot i).transitions := by
    intro p hp
    have hslot : (nextBlock i n (writeReason i .none p)).slot i = (writeReason i .none p).slot i :=
      slot_congr i (nextBlock_slots i n _)
    refine ⟨?_, ?_⟩
    · have hposted : (writeReason i .none p).posted i := postSlot_posted i _
      unfold State.posted at hposted ⊢
      rw [hslot, nextBlock_link]
      exact hposted
    · rw [hslot, slot_writeReason_self, hp]
  unfold startTransfer
  dsimp only
  rw [if_pos hr]
  exact hpinned _ (slot_of_set_self (s := s) rfl)

theorem entered_startTransfer {i : SlotId} {n : Fin 8} {st : SlotState} {s t : State} (h : Entered i st .none 1 s t) :
    Entered i st .none 1 s (startTransfer i n t) := by
  have hpinned : ∀ p : State, p.slot i = { t.slot i with pin := some n, transferCount := 0 } → p.recorder = t.recorder →
      p.link = t.link → Entered i st .none 1 s (nextBlock i n p) := by
    intro p hp hrecorder hlink
    refine h.of_fields ?_ (by rw [nextBlock_recorder, hrecorder]) (by rw [nextBlock_link, hlink])
    rw [slot_congr i (nextBlock_slots i n p), hp]
    rfl
  unfold startTransfer
  dsimp only
  rw [if_neg (by rw [h.reason]; decide)]
  exact hpinned _ (slot_of_set_self (s := t) rfl) rfl rfl

/-! ### The completions of READY_WAIT -/

theorem takeCompletion_readyWait {i : SlotId} {s : State} (hst : (s.slot i).state = .readyWait) (a : Completion) :
    takeCompletion i a s = takeInReadyWait i a s := by
  rw [takeCompletion, hst]

theorem takeInReadyWait_seen {i : SlotId} {a : Completion} (hkind : a.kind = .statusRead) (hdone : a.outcome = .done)
    (hbit : readyBit (byteAt a.data 0) = true) (s : State) : takeInReadyWait i a s = takeReady i s := by
  unfold takeInReadyWait
  rw [hkind, hdone]
  exact if_pos hbit

/-- A status read that does not show the ready bit lets the next poll go, or is discarded when it was aborted. -/
theorem takeInReadyWait_unseen {i : SlotId} {a : Completion} (hkind : a.kind = .statusRead)
    (hunseen : ¬ (a.outcome = .done ∧ readyBit (byteAt a.data 0) = true)) (s : State) :
    takeInReadyWait i a s = if a.outcome ∈ [.done, .cardNak, .busTimeout] then pollAgain i s else s := by
  unfold takeInReadyWait
  rw [hkind]
  cases ho : a.outcome
  case done => exact if_neg fun hbit => hunseen ⟨ho, hbit⟩
  all_goals rfl

theorem pollAgain_due {i : SlotId} {s : State} (hdue : (s.slot i).pollDue = true) (hfree : s.engine.hasJob i = false) :
    pollAgain i s = pollStatus i s := by
  rw [pollAgain, if_pos (by rw [hdue, hfree]; rfl)]

theorem pollAgain_none {i : SlotId} {s : State} (hdue : (s.slot i).pollDue = false) : pollAgain i s = s := by
  rw [pollAgain, if_neg (by rw [hdue]; simp)]

/-! ### Announcements -/

theorem exec_announcement {s : State} {i : SlotId} {n : Fin 8} {rest : List (Fin 8)} (hlive : s.inReset = false)
    (ha : (s.slot i).inbox.announcements = n :: rest) : exec (.setReadyAnnouncement i) s = .next (takeAnnouncement i n
      (s.setSlot i { s.slot i with inbox := { (s.slot i).inbox with announcements := rest } })) := by
  show whenLive (takeNextAnnouncement i) s = _
  rw [whenLive, if_neg (by simp [hlive]), takeNextAnnouncement, ha]
  rfl

/-- What an announcement for a waiting slot leads to. -/
theorem announcement_examines {s : State} {i : SlotId} {n : Fin 8} {rest : List (Fin 8)} (hlive : s.inReset = false)
    (ha : (s.slot i).inbox.announcements = n :: rest) (hst : (s.slot i).state = .configuring)
    (hpin : (s.slot i).pin = none) (hparam : (s.slot i).screening.paramSet = some n) (hset : s.sets[n].state = .ready)
    {t : State} (ht : examineSet i n
      (s.setSlot i { s.slot i with inbox := { (s.slot i).inbox with announcements := rest } }) = t) :
    exec (.setReadyAnnouncement i) s = .next (transmit t) ∧ t.link.replies = s.link.replies := by
  have hquiet := quiet_examineSet i n
    (s.setSlot i { s.slot i with inbox := { (s.slot i).inbox with announcements := rest } })
  rw [ht] at hquiet
  refine ⟨?_, hquiet.replies⟩
  rw [exec_announcement hlive ha, takeAnnouncement]
  dsimp only
  rw [slot_setSlot_self, if_pos ⟨hst, hpin, hparam, hset⟩, ht]

/-! ### The obligation -/

/-- Settles O47. -/
theorem readyCardIsConfiguredOrInserted : Obligations.ReadyCardIsConfiguredOrInserted := by
  intro s i hlive
  refine ⟨fun a rest hc hst hkind => ?_, fun n rest ha => ?_⟩
  · intro c u answers seen
    have hslot : u.slot i = c := slot_setSlot_self s i c
    have huslot : (u.slot i).state = .readyWait := by rw [hslot]; exact hst
    have hanswers : ∀ {t} {p : State → Prop}, takeInReadyWait i a u = t → p t → answers p := fun ht hp =>
      completion_answers hlive hc ((takeCompletion_readyWait huslot a).trans ht) hp
    have hready : seen → takeInReadyWait i a u = takeReady i u := fun h => takeInReadyWait_seen hkind h.1 h.2 u
    have hexamines : ∀ {n}, seen → c.screening.paramSet = some n →
        takeInReadyWait i a u = examineSet i n (toConfiguring i u) := fun h hn =>
      (hready h).trans (takeReady_configures (by rw [hslot]; exact hn))
    have hentered := entered_toConfiguring i u
    have hkeeps : Keeps i s u := by constructor <;> rw [hslot]
    have hframe : SlotFrame i s u := slotFrame_setSlot i s c
    obtain ⟨q, hq⟩ := slot_toConfiguring i u
    rw [hslot] at hq
    refine ⟨fun hseen hnone => ?inserted, fun n hseen hn hset => ?waits, fun n hseen hn hset hl => ?large,
      fun n hseen hn hset hl hpos => ?starts, fun hunseen ho hdue hfree => ?polls, fun hunseen hdue => ?discards⟩
    case inserted =>
      exact hanswers ((hready hseen).trans (takeReady_inserts (by rw [hslot]; exact hnone)))
        (inserts_insertWindow i (withdrawJob i u)).from_withdrawn
    case waits =>
      have hwaits := examineSet_waits (i := i) (n := n) (s := toConfiguring i u) (by rw [toConfiguring_sets]; exact hset)
        (by rw [hentered.reason]; decide)
      refine hanswers ((hexamines hseen hn).trans hwaits) ⟨hentered.rewritten _,
        hframe.trans ((slotFrame_toConfiguring i u).trans (slotFrame_writeReason i _ _)),
        hkeeps.trans ((keeps_toConfiguring i u).trans ?_), ?_⟩
      · constructor <;> rw [slot_writeReason_self]
      · rw [slot_writeReason_self, hq]
        rfl
    case large =>
      have hlarge := examineSet_large (i := i) (n := n) (s := toConfiguring i u) (by rw [toConfiguring_sets]; exact hset)
        (by rw [toConfiguring_sets, hq]; exact hl)
      exact hanswers ((hexamines hseen hn).trans hlarge) ((faults_takeFault i _ _).from_configuring huslot)
    case starts =>
      have hstarts := examineSet_starts (i := i) (n := n) (s := toConfiguring i u) (by rw [toConfiguring_sets]; exact hset)
        (by rw [toConfiguring_sets, hq]; exact hl)
      exact hanswers ((hexamines hseen hn).trans hstarts)
        ⟨(startsTransfer_startTransfer hentered.state (.inl hentered.reason)
          (by rw [toConfiguring_sets]; exact hpos)).from_configuring, entered_startTransfer hentered⟩
    case polls =>
      have hpolls : takeInReadyWait i a u = issueJob i .statusRead (s.setSlot i
          { c with pollDue := false, timers := { c.timers with poll := some 5 } }) := by
        have hpollDue : (u.slot i).pollDue = true := by rw [hslot]; exact hdue
        rw [takeInReadyWait_unseen hkind hunseen, if_pos ho, pollAgain_due (s := u) hpollDue hfree, pollStatus,
          updSlot_eq, hslot, setSlot_setSlot]
        rfl
      obtain ⟨hlocal, hframe, hissued⟩ := issueJob_account i
        { c with pollDue := false, timers := { c.timers with poll := some 5 } } .statusRead s
      exact hanswers hpolls ⟨hissued, hframe, hlocal⟩
    case discards =>
      refine completion_discarded hlive hc ((takeCompletion_readyWait huslot a).trans ?_)
      rw [takeInReadyWait_unseen hkind hunseen]
      split
      · exact pollAgain_none (by rw [hslot]; exact hdue)
      · rfl
  · intro c u waiting
    have hslot : u.slot i = c := slot_setSlot_self s i c
    refine ⟨fun hw hl => ?large, fun hw hl hpos hr => ?starts, fun hw => ?discards⟩
    case large =>
      obtain ⟨hst, hpin, hparam, hset⟩ := hw
      have hlarge := examineSet_large (i := i) (n := n) (s := u) hset (by rw [hslot]; exact hl)
      obtain ⟨hexec, hreplies⟩ := announcement_examines hlive ha hst hpin hparam hset hlarge
      exact ⟨_, hexec, faults_takeFault i _ u, hreplies⟩
    case starts =>
      obtain ⟨hst, hpin, hparam, hset⟩ := hw
      have hstarts := examineSet_starts (i := i) (n := n) (s := u) hset (by rw [hslot]; exact hl)
      obtain ⟨hexec, hreplies⟩ := announcement_examines hlive ha hst hpin hparam hset hstarts
      obtain ⟨hposted, htransitions⟩ := startTransfer_waited (i := i) (n := n) (s := u) (by rw [hslot]; exact hr)
      exact ⟨_, hexec, startsTransfer_startTransfer (by rw [hslot]; exact hst) (.inr (by rw [hslot]; exact hr)) hpos,
        hposted, by rw [htransitions, hslot], hreplies⟩
    case discards =>
      rw [exec_announcement hlive ha, takeAnnouncement]
      dsimp only
      rw [slot_setSlot_self]
      exact congrArg Host.Outcome.next (if_neg hw)

end Sys2Proof.Machine
end

section
/-!
PROOF. The unlock walk: the keys it offers and what a denied one charges (04 R73 to R78, R81).
-/
namespace Sys2Proof.Machine

/-! ### The next key (04 R74) -/

/-- A search over all indices finds the lowest that is looked for. -/
theorem find_lowest {n : Nat} {p : Fin n → Bool} {k : Fin n} (hk : p k = true) (hmin : ∀ l, l < k → p l = false) :
    (List.finRange n).find? p = some k := by
  refine List.find?_eq_some_iff_getElem.2 ⟨hk, k.val, by simp, by simp, fun j hj => ?_⟩
  have hlt : j < n := Nat.lt_trans hj k.isLt
  simpa using hmin ⟨j, hlt⟩ hj

/-- A key slot that the walk may offer: at its position or after it, in the card's mask and loaded (04 R74). -/
def Slot.offers? (c : Slot) (keys : Vector KeySlot 4) (k : Fin 4) : Prop :=
  c.walkPos ≤ k.val ∧ keys[k].loaded = true ∧
    ∃ r, c.screening.identity = some r ∧ (r.getD 10 0).getLsbD k.val = true

/-- What the walk asks of a key slot. -/
theorem offers?_iff (c : Slot) (keys : Vector KeySlot 4) (k : Fin 4) : c.offers? keys k ↔
    (decide (c.walkPos ≤ k.val) && (c.screening.identity.map fun r => identKeyMask r k.val).getD false &&
      keys[k].loaded) = true := by
  unfold Slot.offers?
  cases hid : c.screening.identity with
  | none => simp
  | some r =>
    simp only [Option.map_some, Option.getD_some, Bool.and_eq_true, decide_eq_true_eq]
    constructor
    · exact fun ⟨hpos, hloaded, _, rfl, hmask⟩ => ⟨⟨hpos, hmask⟩, hloaded⟩
    · exact fun ⟨⟨hpos, hmask⟩, hloaded⟩ => ⟨hpos, hloaded, r, rfl, hmask⟩

theorem nextKey_lowest {c : Slot} {keys : Vector KeySlot 4} {k : Fin 4} (hk : c.offers? keys k)
    (hmin : ∀ l, l < k → ¬ c.offers? keys l) : nextKey c keys = some k :=
  find_lowest ((offers?_iff c keys k).1 hk) fun l hl => by
    have hno := hmin l hl
    rw [offers?_iff, Bool.not_eq_true] at hno
    exact hno

theorem nextKey_none {c : Slot} {keys : Vector KeySlot 4} (h : ∀ k, ¬ c.offers? keys k) : nextKey c keys = none :=
  List.find?_eq_none.2 fun k _ hk => h k ((offers?_iff c keys k).2 hk)

/-! ### One step of the walk -/

theorem walkKeys_offers {i : SlotId} {k : Fin 4} {c : Slot} {s : State} (h : nextKey c s.keys = some k) :
    walkKeys i (s.setSlot i c) = issueJob i (.unlock k s.keys[k].key)
      (s.setSlot i { c with walkPos := k.val + 1, offers := c.offers + 1 }) := by
  have hkeys : nextKey ((s.setSlot i c).slot i) (s.setSlot i c).keys = some k := by rw [slot_setSlot_self]; exact h
  unfold walkKeys
  rw [hkeys]
  dsimp only
  rw [updSlot_eq, slot_setSlot_self, setSlot_setSlot]
  rfl

theorem walkKeys_ends {i : SlotId} {c : Slot} {s : State} (h : nextKey c s.keys = none) : walkKeys i (s.setSlot i c) =
    transition i .refused (if c.offers = 0 then .noKey else .keyDenied) (s.setSlot i c) := by
  have hkeys : nextKey ((s.setSlot i c).slot i) (s.setSlot i c).keys = none := by rw [slot_setSlot_self]; exact h
  unfold walkKeys
  rw [hkeys, slot_setSlot_self]

theorem chargeDenial_walks {i : SlotId} {c : Slot} {s : State} (h : 1 < c.allowance) :
    chargeDenial i (s.setSlot i c) = walkKeys i (s.setSlot i { c with allowance := c.allowance - 1 }) := by
  unfold chargeDenial
  dsimp only
  rw [updSlot_eq, setSlot_setSlot, slot_setSlot_self, slot_setSlot_self, if_neg]
  show ¬ c.allowance - 1 = 0
  omega

theorem chargeDenial_bars {i : SlotId} {c : Slot} {s : State} (h : c.allowance ≤ 1) : chargeDenial i (s.setSlot i c) =
    powerOff i .barred .allowanceSpent (s.setSlot i { c with allowance := 0 }) := by
  have hspent : c.allowance - 1 = 0 := by omega
  unfold chargeDenial
  dsimp only
  rw [updSlot_eq, setSlot_setSlot, slot_setSlot_self, slot_setSlot_self, hspent, if_pos rfl]

/-- Nothing of an entry's start is the allowance. -/
theorem Entered.of_setSlot {i : SlotId} {st : SlotState} {r : Reason} {k : Nat} {s t : State} {c d : Slot}
    (h : Entered i st r k (s.setSlot i d) t) (hf : d.startFields = c.startFields) :
    Entered i st r k (s.setSlot i c) t :=
  h.of_start (by rw [slot_setSlot_self, slot_setSlot_self, hf]) rfl

/-! ### The completions of UNLOCKING -/

theorem takeCompletion_unlocking {i : SlotId} {s : State} (hst : (s.slot i).state = .unlocking) (a : Completion) :
    takeCompletion i a s = takeInUnlocking i a s := by
  rw [takeCompletion, hst]

theorem takeInUnlocking_aborted {a : Completion} (h : a.outcome = .aborted) (i : SlotId) (s : State) :
    takeInUnlocking i a s = s := by
  unfold takeInUnlocking
  rw [h]
  cases a.kind <;> rfl

theorem takeInUnlocking_locked {a : Completion} (hkind : a.kind = .statusRead) (hdone : a.outcome = .done)
    (i : SlotId) (s : State) : takeInUnlocking i a s =
      if lockedBit (byteAt a.data 0) then walkKeys i s else toPowerWait i s := by
  unfold takeInUnlocking
  rw [hkind, hdone]

theorem takeInUnlocking_granted {a : Completion} (hkind : a.kind = .unlock) (ho : a.outcome = .granted)
    (i : SlotId) (s : State) : takeInUnlocking i a s = toPowerWait i s := by
  unfold takeInUnlocking
  rw [hkind, ho]

theorem takeInUnlocking_denied {a : Completion} (hkind : a.kind = .unlock) (ho : a.outcome = .denied)
    (i : SlotId) (s : State) : takeInUnlocking i a s = chargeDenial i s := by
  unfold takeInUnlocking
  rw [hkind, ho]

theorem takeInUnlocking_fails {a : Completion} (hkind : a.kind = .statusRead ∨ a.kind = .unlock)
    (ho : a.outcome = .cardNak ∨ a.outcome = .busTimeout) (i : SlotId) (s : State) :
    takeInUnlocking i a s = takeFault i .setupBus s := by
  unfold takeInUnlocking
  rcases hkind with hkind | hkind <;> rcases ho with ho | ho <;> rw [hkind, ho]

/-- Settles O46. -/
theorem unlockWalkOffersAndCharges : Obligations.UnlockWalkOffersAndCharges := by
  intro s i a rest hlive hc hst c u answers offered walks
  have hslot : u.slot i = c := slot_setSlot_self s i c
  have hunlocking : (u.slot i).state = .unlocking := by rw [hslot]; exact hst
  have hanswers : ∀ {t} {p : State → Prop}, takeInUnlocking i a u = t → p t → answers p := fun ht hp =>
    completion_answers hlive hc ((takeCompletion_unlocking hunlocking a).trans ht) hp
  have hjoins : JoinsPower i u (toPowerWait i u) := joinsPower_toPowerWait (by rw [hunlocking]; rfl)
  -- a step of the walk, from an allowance that a denial may have lowered
  have hwalks : ∀ allowance, takeInUnlocking i a u = walkKeys i (s.setSlot i { c with allowance := allowance }) →
      walks allowance := by
    intro allowance hstep
    refine ⟨fun k hk hmin => ?_, fun hnone => ?_⟩
    · exact hanswers (hstep.trans (walkKeys_offers (nextKey_lowest (c := { c with allowance := allowance }) hk hmin)))
        (issueJob_account i _ _ s)
    · refine hanswers (hstep.trans (walkKeys_ends (nextKey_none (c := { c with allowance := allowance }) hnone))) ?_
      have hentered := entered_transition (i := i) (st := .refused) (r := if c.offers = 0 then .noKey else .keyDenied)
        (s := s.setSlot i { c with allowance := allowance }) rfl
      refine ⟨hentered.of_setSlot rfl, (local_updSlot i (fun _ => { c with allowance := allowance }) s).trans
        (local_transition i _ _ _), ?_⟩
      rw [slot_transition_self, slot_setSlot_self]
      exact ⟨rfl, rfl, rfl⟩
  refine ⟨fun hkind ho hbit => ?open_, fun hkind ho hbit => ?locked, fun hkind ho => ?granted, fun hkind ho hmore => ?denied,
    fun hkind ho hlast => ?barred, fun hkind ho => ?fails, fun ho => ?aborted⟩
  case open_ =>
    have hopen : ¬ lockedBit (byteAt a.data 0) = true := fun hlocked =>
      Bool.false_ne_true ((show _ = false from hbit).symm.trans hlocked)
    exact hanswers ((takeInUnlocking_locked hkind ho i u).trans (if_neg hopen)) hjoins
  case locked =>
    exact hwalks c.allowance ((takeInUnlocking_locked hkind ho i u).trans (if_pos hbit))
  case granted =>
    exact hanswers (takeInUnlocking_granted hkind ho i u) hjoins
  case denied =>
    exact hwalks (c.allowance - 1) ((takeInUnlocking_denied hkind ho i u).trans (chargeDenial_walks hmore))
  case barred =>
    refine hanswers ((takeInUnlocking_denied hkind ho i u).trans (chargeDenial_bars hlast)) ?_
    have hspent := slot_setSlot_self s i { c with allowance := 0 }
    have hentered := entered_powerOff (i := i) (st := .barred) (r := .allowanceSpent)
      (s := s.setSlot i { c with allowance := 0 }) rfl
    have hkeeps := keeps_powerOff i .barred .allowanceSpent (s.setSlot i { c with allowance := 0 }) rfl
    refine ⟨hentered.of_setSlot rfl, (poweredDown_powerOff i _ _ _).of_updSlot (f := fun _ => { c with allowance := 0 }) rfl,
      (slotFrame_setSlot i s _).trans (slotFrame_powerOff i _ _ _), ?_, ?_, ?_⟩
    · rw [hkeeps.allowance, hspent]
    · rw [hkeeps.screening, hspent]
    · rw [hkeeps.faultCount, hspent]
  case fails =>
    exact hanswers (takeInUnlocking_fails hkind ho i u) (faults_takeFault i _ u)
  case aborted =>
    exact completion_discarded hlive hc
      ((takeCompletion_unlocking hunlocking a).trans (takeInUnlocking_aborted ho i u))

end Sys2Proof.Machine
end

section
/-!
PROOF. The identity reads and the screening of a card (03 R50 to R52, R56, R63 to R65).
-/
namespace Sys2Proof.Machine

/-! ### The checks of a record (03 R50, R51) -/

theorem toNat_foldl_add (r : List Byte) : ∀ b : Byte,
    (r.foldl (· + ·) b).toNat = (b.toNat + (r.map BitVec.toNat).sum) % 256 := by
  induction r with
  | nil =>
    intro b
    have hb := b.isLt
    simp only [List.foldl_nil, List.map_nil, List.sum_nil]
    omega
  | cons x r ih =>
    intro b
    rw [List.foldl_cons, ih, BitVec.toNat_add, List.map_cons, List.sum_cons]
    omega

theorem byteSum_eq_zero (r : List Byte) : byteSum r = 0 ↔ (r.map BitVec.toNat).sum % 256 = 0 := by
  have hsum := toNat_foldl_add r 0
  rw [show BitVec.toNat (0 : Byte) = 0 from rfl, Nat.zero_add] at hsum
  rw [← hsum]
  exact ⟨fun h => congrArg BitVec.toNat h, fun h => BitVec.eq_of_toNat_eq h⟩

theorem headerGood_iff (h : List Byte) : headerGood h = true ↔
    h.getD 0 0 = 0xD7 ∧ 32 ≤ (h.getD 1 0).toNat ∧ (h.getD 1 0).toNat ≤ 64 := decide_eq_true_iff

theorem identityValid_iff (r : List Byte) : identityValid r = true ↔
    (r.map BitVec.toNat).sum % 256 = 0 ∧ (r.getD 11 0).toNat / 16 < 3 ∧ (r.getD 11 0).toNat % 16 < 3 ∧
      fieldAt r 14 2 ≤ 256 ∧ fieldAt r 16 2 ≤ 256 ∧ 0 < fieldAt r 12 2 ∧ fieldAt r 12 2 ≤ 2500 ∧
      (fieldAt r 28 2 = 0 ∨ 0 < (r.getD 30 0).toNat ∧ (r.getD 30 0).toNat ≤ 32) := by
  rw [← byteSum_eq_zero]
  exact decide_eq_true_iff

/-! ### The completions of IDENTIFYING -/

theorem takeCompletion_identifying {i : SlotId} {s : State} (hst : (s.slot i).state = .identifying) (a : Completion) :
    takeCompletion i a s = takeInIdentifying i a s := by
  rw [takeCompletion, hst]

/-- In a state that issues no job a completion is discarded (01 R14). -/
theorem takeCompletion_idle {i : SlotId} {s : State}
    (hst : (s.slot i).state ∉ [.identifying, .unlocking, .readyWait, .configuring]) (a : Completion) :
    takeCompletion i a s = s := by
  unfold takeCompletion
  generalize (s.slot i).state = st at hst
  cases st
  case identifying | unlocking | readyWait | configuring => simp at hst
  all_goals rfl

theorem takeInIdentifying_aborted {a : Completion} (h : a.outcome = .aborted) (i : SlotId) (s : State) :
    takeInIdentifying i a s = s := by
  unfold takeInIdentifying
  rw [h]
  cases a.kind <;> rfl

theorem takeInIdentifying_fails {a : Completion} (hkind : a.kind = .identRead)
    (ho : a.outcome = .cardNak ∨ a.outcome = .busTimeout) (i : SlotId) (s : State) :
    takeInIdentifying i a s = takeFault i .setupBus s := by
  unfold takeInIdentifying
  rcases ho with ho | ho <;> rw [hkind, ho]

theorem takeInIdentifying_header {a : Completion} (hkind : a.kind = .identRead) (hdone : a.outcome = .done)
    {i : SlotId} {s : State} (hbuffer : (s.slot i).readBuffer = []) :
    takeInIdentifying i a s = takeHeader i a.data s := by
  unfold takeInIdentifying
  rw [hkind, hdone]
  exact if_pos (by rw [hbuffer]; rfl)

theorem takeInIdentifying_body {a : Completion} (hkind : a.kind = .identRead) (hdone : a.outcome = .done)
    {i : SlotId} {s : State} (hbuffer : (s.slot i).readBuffer ≠ []) :
    takeInIdentifying i a s = takeBody i a.data s := by
  unfold takeInIdentifying
  rw [hkind, hdone]
  exact if_neg (by rwa [List.isEmpty_iff])

theorem setScreening_setSlot (i : SlotId) (r : Screening) (c : Slot) (s : State) :
    setScreening i r (s.setSlot i c) = s.setSlot i { c with screening := r } := by
  rw [setScreening, updSlot_eq, slot_setSlot_self, setSlot_setSlot]

/-! ### The screening step (03 R63, R64) -/

theorem screenCard_refuses {i : SlotId} {ident : List Byte} {reason : Reason} {matched : Option (Fin 16)} {s : State}
    (h : s.policy.verdict (identCode ident) = .refuse reason matched) : screenCard i ident s =
      refuseCard i reason { Screening.absent with identity := some ident, matched := matched } s := by
  unfold screenCard
  rw [h]

theorem screenCard_accepts {i : SlotId} {ident : List Byte} {action : PolicyAction} {matched : Option (Fin 16)}
    {rank : Nat} {set : Option (Fin 8)} {s : State}
    (h : s.policy.verdict (identCode ident) = .accept action matched rank set) : screenCard i ident s =
      screenTiming i ident action
        { Screening.absent with identity := some ident, matched := matched, rank := some rank, paramSet := set } s := by
  unfold screenCard
  rw [h]

theorem screenTiming_range {i : SlotId} {ident : List Byte} {action : PolicyAction} {r : Screening} {s : State}
    (h : windowOf ident = none) : screenTiming i ident action r s = refuseCard i .timingRange r s := by
  unfold screenTiming
  rw [h]

/-- Where the policy's action takes a card that has passed every question (03 R63 questions 6 to 8). -/
def admitBy (i : SlotId) : PolicyAction → State → State
  | .consent => toConsentWait i
  | .allow => admitCard i

/-- What follows a window in range: the window's length, the card's power, then the policy's action. -/
theorem screenTiming_window {i : SlotId} {ident : List Byte} {action : PolicyAction} {r : Screening} {s : State}
    {d : Descriptor} {flags : ClampFlags} (h : windowOf ident = some (d, flags)) : screenTiming i ident action r s =
      if usableSpan s.planner.settings < d.length then
        refuseCard i .windowTooLong { r with window := some d, clamps := flags } s
      else if s.arbiter.budget < identPower ident then
        refuseCard i .powerRange { r with window := some d, clamps := flags } s
      else admitBy i action (setScreening i { r with window := some d, clamps := flags } s) := by
  unfold screenTiming
  rw [h]
  cases action <;> rfl

theorem screenTiming_fits {i : SlotId} {ident : List Byte} {action : PolicyAction} {r : Screening} {s : State}
    {d : Descriptor} {flags : ClampFlags} (h : windowOf ident = some (d, flags))
    (hspan : d.length ≤ usableSpan s.planner.settings) (hpower : identPower ident ≤ s.arbiter.budget) :
    screenTiming i ident action r s =
      admitBy i action (setScreening i { r with window := some d, clamps := flags } s) := by
  rw [screenTiming_window h, if_neg (Nat.not_lt.2 hspan), if_neg (Nat.not_lt.2 hpower)]

/-- Settles O45. -/
theorem identityReadAndScreened : Obligations.IdentityReadAndScreened := by
  intro s i a rest hlive hc c u answers refuses len headed r valid read
  have hslot : u.slot i = c := slot_setSlot_self s i c
  refine ⟨fun hst hkind => ?_, fun hst => completion_discarded hlive hc
    (takeCompletion_idle (s := u) (by rw [hslot]; exact hst) a)⟩
  have hidentifying : (u.slot i).state = .identifying := by rw [hslot]; exact hst
  have hanswers : ∀ {t} {p : State → Prop}, takeInIdentifying i a u = t → p t → answers p := fun ht hp =>
    completion_answers hlive hc ((takeCompletion_identifying hidentifying a).trans ht) hp
  -- a refusal, with the results it leaves
  have hrefuses : ∀ reason results, takeInIdentifying i a u =
      transition i .refused reason (s.setSlot i { c with screening := results }) → refuses reason results := by
    intro reason results ht
    have hentered := entered_transition (i := i) (st := .refused) (r := reason)
      (s := s.setSlot i { c with screening := results }) rfl
    refine hanswers ht ⟨hentered.of_setSlot rfl, (local_updSlot i (fun _ => { c with screening := results }) s).trans
      (local_transition i _ _ _), ?_⟩
    rw [slot_transition_self, slot_setSlot_self]
    exact ⟨rfl, rfl, rfl⟩
  have hrefuseCard : ∀ reason results, takeInIdentifying i a u = refuseCard i reason results u →
      refuses reason results := fun reason results ht =>
    hrefuses reason results (ht.trans (congrArg _ (setScreening_setSlot i results c s)))
  refine ⟨fun hdone hbuffer hbad => ?badHeader, fun hdone hbuffer hgood => ?header, fun hdone hbuffer hbad => ?invalid,
    fun hdone hbuffer hvalid => ?screened, fun ho => ?fails, fun ho => ?aborted⟩
  case badHeader =>
    have hheader := takeInIdentifying_header (s := u) (i := i) hkind hdone (by rw [hslot]; exact hbuffer)
    refine hrefuses _ _ (hheader.trans ?_)
    rw [takeHeader, if_neg fun h => hbad ((headerGood_iff a.data).1 h)]
  case header =>
    have hheader := takeInIdentifying_header (s := u) (i := i) hkind hdone (by rw [hslot]; exact hbuffer)
    refine hanswers (t := issueJob i (.identRead 8 (len - 8)) (s.setSlot i { c with readBuffer := a.data }))
      (hheader.trans ?_) (issueJob_account i _ _ s)
    rw [takeHeader, if_pos ((headerGood_iff a.data).2 hgood), updSlot_eq, hslot, setSlot_setSlot]
    rfl
  case invalid =>
    have hbody := takeInIdentifying_body (s := u) (i := i) hkind hdone (by rw [hslot]; exact hbuffer)
    refine hrefuses _ _ (hbody.trans ?_)
    rw [takeBody, hslot]
    exact if_neg fun h => hbad ((identityValid_iff r).1 h)
  case fails =>
    exact hanswers (takeInIdentifying_fails hkind ho i u) (faults_takeFault i _ u)
  case aborted =>
    exact completion_discarded hlive hc
      ((takeCompletion_identifying hidentifying a).trans (takeInIdentifying_aborted ho i u))
  -- a valid record is screened
  have hscreened : takeInIdentifying i a u = screenCard i r u := by
    rw [takeInIdentifying_body (s := u) (i := i) hkind hdone (by rw [hslot]; exact hbuffer), takeBody, hslot]
    exact if_pos ((identityValid_iff r).2 hvalid)
  refine ⟨fun reason matched hverdict => hrefuseCard _ _ (hscreened.trans (screenCard_refuses hverdict)), ?_⟩
  intro action matched rank set hverdict judged
  have hjudged := hscreened.trans (screenCard_accepts (s := u) hverdict)
  refine ⟨fun hwindow => hrefuseCard _ _ (hjudged.trans (screenTiming_range hwindow)), ?_⟩
  intro d flags hwindow full w
  have hw : setScreening i full u = w := setScreening_setSlot i full c s
  have hwslot : w.slot i = { c with screening := full } := slot_setSlot_self s i _
  have hlocal : Local i s w := local_updSlot i (fun _ => { c with screening := full }) s
  refine ⟨fun hspan => hrefuseCard _ _ (hjudged.trans ((screenTiming_window hwindow).trans (if_pos hspan))),
    fun hspan => ⟨fun hpower => hrefuseCard _ _ (hjudged.trans ((screenTiming_window hwindow).trans
      ((if_neg (Nat.not_lt.2 hspan)).trans (if_pos hpower)))), fun hpower => ?_⟩⟩
  have hfits := hjudged.trans (screenTiming_fits (s := u) hwindow hspan hpower)
  refine ⟨fun hconsent => ?consent, fun hallow hkeyed => ?locked, fun hallow hfree => ?admitted⟩
  case consent =>
    rw [hconsent] at hfits
    refine hanswers (hfits.trans (congrArg (toConsentWait i) hw)) ⟨(entered_toConsentWait i w).of_setSlot rfl,
      hlocal.trans (local_toConsentWait i w), ?_, keeps_toConsentWait i w⟩
    rw [slot_toConsentWait]
    rfl
  case locked =>
    rw [hallow] at hfits
    have hadmits : admitCard i w = toUnlocking i w := by
      rw [admitCard, hwslot]
      exact if_pos hkeyed
    have hunlocking := slot_toUnlocking i w
    refine hanswers (hfits.trans ((congrArg (admitCard i) hw).trans hadmits))
      ⟨(entered_toUnlocking i w).of_setSlot rfl, (slotFrame_setSlot i s _).trans (slotFrame_toUnlocking i w),
        hlocal.trans (local_toUnlocking i w), ?_, ?_, mem_issueJob_jobs i _ _, keeps_toUnlocking i w⟩
    · rw [hunlocking]
    · rw [hunlocking]
  case admitted =>
    rw [hallow] at hfits
    have hadmits : admitCard i w = toPowerWait i w := by
      rw [admitCard, hwslot]
      exact if_neg fun h => Bool.false_ne_true (hfree.symm.trans h)
    refine hanswers (hfits.trans ((congrArg (admitCard i) hw).trans hadmits)) (joinsPower_toPowerWait ?_)
    rw [hwslot]
    show c.state.inBringUp = false
    rw [hst]
    rfl

end Sys2Proof.Machine
end

section
/-!
PROOF. What taking completions does to a slot whose frames are checked for overload and PG loss: its runs and its
threshold stand while it stays in the six states, and a fault is the only way out of them (02 R45, R47, 05 R84).
-/
namespace Sys2Proof.Machine

/-- What the checks of 05 R84 read of a slot. -/
def Slot.checkFields (c : Slot) := (c.overCurrentRun, c.pgLostRun, c.threshold)

/-- A slot has stayed in the checked states with its runs, or has been taken out of them by a fault. -/
def Slot.ChecksStand (c d : Slot) : Prop :=
  d.state.checked = true ∧ d.checkFields = c.checkFields ∨ d.state = .cooldown ∨ d.state = .faulted

theorem checked_iff (st : SlotState) : st.checked = true ↔
    st ∈ [.resetHold, .readyWait, .configuring, .roomWait, .joining, .running] := by
  cases st <;> simp [SlotState.checked]

theorem Slot.ChecksStand.trans {c d e : Slot} (h1 : c.ChecksStand d) (h2 : d.state.checked = true → d.ChecksStand e)
    (hrest : d.state = .cooldown ∨ d.state = .faulted → e = d) : c.ChecksStand e := by
  rcases h1 with ⟨hst, hfields⟩ | hout
  · rcases h2 hst with ⟨hst', hfields'⟩ | hout
    · exact .inl ⟨hst', hfields'.trans hfields⟩
    · exact .inr hout
  · rw [hrest hout]
    exact .inr hout

/-- A notice put on the line touches no more of the slot than its transition count. -/
theorem Slot.ChecksStand.transmitted {c : Slot} {i : SlotId} {s : State} (h : c.ChecksStand (s.slot i)) :
    c.ChecksStand ((transmit s).slot i) := by
  rcases slot_transmit s i with hslot | hslot <;> (rw [hslot]; exact h)

/-! ### The steps of a slot -/

theorem checks_takeFault (i : SlotId) (code : Reason) (s : State) (c : Slot) :
    c.ChecksStand ((takeFault i code s).slot i) := by
  have hfaults := faults_takeFault i code s
  refine .inr ?_
  by_cases hr : code.retryable = true ∧ ((takeFault i code s).slot i).faultCount ≤ s.times.retryLimit
  · exact .inl (hfaults.retried hr.1 hr.2).1.state
  · refine .inr (hfaults.rested ?_).state
    by_cases hcode : code.retryable = true
    · exact .inr (Nat.lt_of_not_le fun hle => hr ⟨hcode, hle⟩)
    · exact .inl (Bool.not_eq_true _ ▸ hcode)

theorem checks_insertWindow {i : SlotId} {s : State} {c : Slot} (h : (s.slot i).checkFields = c.checkFields) :
    c.ChecksStand ((insertWindow i s).slot i) := by
  obtain ⟨st, r, hst, hslot⟩ := slot_insertWindow i s
  rw [hslot]
  rcases hst with rfl | rfl <;> exact .inl ⟨rfl, h⟩

theorem slot_startTransfer (i : SlotId) (n : Fin 8) (s : State) : ∃ r, (startTransfer i n s).slot i =
    { s.slot i with pin := some n, transferCount := 0, reason := r } := by
  have hpinned : ∀ p : State, p.slot i = { s.slot i with pin := some n, transferCount := 0 } → ∃ r,
      (nextBlock i n (if (s.slot i).reason = .paramsWait then writeReason i .none p else p)).slot i =
        { s.slot i with pin := some n, transferCount := 0, reason := r } := by
    intro p hp
    rw [slot_congr i (nextBlock_slots i n _)]
    split
    · exact ⟨.none, by rw [slot_writeReason_self, hp]⟩
    · exact ⟨(s.slot i).reason, hp⟩
  unfold startTransfer
  exact hpinned _ (slot_of_set_self (s := s) rfl)

theorem checks_examineSet {i : SlotId} {n : Fin 8} {s : State} {c : Slot} (hst : (s.slot i).state.checked = true)
    (h : (s.slot i).checkFields = c.checkFields) : c.ChecksStand ((examineSet i n s).slot i) := by
  unfold examineSet
  split
  · split
    · exact checks_takeFault ..
    · obtain ⟨r, hslot⟩ := slot_startTransfer i n s
      rw [hslot]
      exact .inl ⟨hst, h⟩
  · split
    · exact .inl ⟨hst, h⟩
    · rw [slot_writeReason_self]
      exact .inl ⟨hst, h⟩

theorem checks_takeReady (i : SlotId) (s : State) : (s.slot i).ChecksStand ((takeReady i s).slot i) := by
  cases hparam : (s.slot i).screening.paramSet with
  | none =>
    rw [takeReady_inserts hparam]
    obtain ⟨q, hq⟩ := withdrawJob_slot i s
    exact checks_insertWindow (by rw [hq]; rfl)
  | some n =>
    rw [takeReady_configures hparam]
    obtain ⟨q, hq⟩ := slot_toConfiguring i s
    exact checks_examineSet (by rw [hq]; rfl) (by rw [hq]; rfl)

theorem checks_pollAgain {i : SlotId} {s : State} (hst : (s.slot i).state.checked = true) :
    (s.slot i).ChecksStand ((pollAgain i s).slot i) := by
  unfold pollAgain
  split
  · rw [pollStatus, slot_issueJob, slot_updSlot_self]
    exact .inl ⟨hst, rfl⟩
  · exact .inl ⟨hst, rfl⟩

theorem checks_takeInReadyWait {i : SlotId} {s : State} (hst : (s.slot i).state.checked = true) (a : Completion) :
    (s.slot i).ChecksStand ((takeInReadyWait i a s).slot i) := by
  unfold takeInReadyWait
  split
  · split
    · exact checks_takeReady i s
    · exact checks_pollAgain hst
  · exact checks_pollAgain hst
  · exact checks_pollAgain hst
  · exact .inl ⟨hst, rfl⟩

theorem checks_takeInTransfer {i : SlotId} {n : Fin 8} {s : State} (hst : (s.slot i).state.checked = true)
    (a : Completion) : (s.slot i).ChecksStand ((takeInTransfer i n a s).slot i) := by
  unfold takeInTransfer
  split
  · rw [advanceBlock, nextBlock_issues, slot_issueJob, slot_updSlot_self]
    exact .inl ⟨hst, rfl⟩
  · refine checks_insertWindow ?_
    rw [endCommit, endTransfer_slot]
    split <;> rfl
  · exact checks_takeFault ..
  · exact checks_takeFault ..
  · exact checks_takeFault ..
  · exact checks_takeFault ..
  · exact checks_takeFault ..
  · exact .inl ⟨hst, rfl⟩

/-- Of the checked states only two act on a completion. -/
theorem checks_takeCompletion {i : SlotId} {s : State} (hst : (s.slot i).state.checked = true) (a : Completion) :
    (s.slot i).ChecksStand ((takeCompletion i a s).slot i) := by
  by_cases hready : (s.slot i).state = .readyWait
  · rw [takeCompletion_readyWait hready]
    exact checks_takeInReadyWait hst a
  · by_cases hconfiguring : (s.slot i).state = .configuring
    · cases hpin : (s.slot i).pin with
      | some n =>
        rw [takeCompletion_transfer hconfiguring hpin]
        exact checks_takeInTransfer hst a
      | none =>
        rw [takeCompletion, hconfiguring]
        dsimp only
        rw [hpin]
        exact .inl ⟨hst, rfl⟩
    · rw [takeCompletion_idle]
      · exact .inl ⟨hst, rfl⟩
      · rw [checked_iff] at hst
        generalize (s.slot i).state = st at hst hready hconfiguring
        cases st <;> simp_all

theorem checks_takeNextCompletion {i : SlotId} {s : State} {c : Slot} (h : c.ChecksStand (s.slot i)) :
    c.ChecksStand ((takeNextCompletion i s).slot i) := by
  unfold takeNextCompletion
  split
  · next a rest _ =>
    have hslot := slot_updSlot_self s i fun x => { x with inbox := { x.inbox with completions := rest } }
    have htaken : c.ChecksStand ((s.updSlot i fun x =>
        { x with inbox := { x.inbox with completions := rest } }).slot i) := by rw [hslot]; exact h
    refine Slot.ChecksStand.transmitted (htaken.trans (fun hst => checks_takeCompletion hst a) fun hout => ?_)
    rw [takeCompletion_idle]
    rcases hout with hout | hout <;> rw [hout] <;> decide
  · exact h

theorem checks_catchUp {i : SlotId} {s : State} (hst : (s.slot i).state.checked = true) :
    (s.slot i).ChecksStand ((catchUp i s).slot i) := by
  have hmany : ∀ n (u : State), (s.slot i).ChecksStand (u.slot i) → (s.slot i).ChecksStand ((takeCompletions i n u).slot i) := by
    intro n
    induction n with
    | zero => exact fun u h => h
    | succ n ih => exact fun u h => ih _ (checks_takeNextCompletion h)
  exact hmany _ s (.inl ⟨hst, rfl⟩)

end Sys2Proof.Machine
end

section
/-!
PROOF. What a slot makes of a monitor frame: the inrush check and the ramp's success in POWERING, the overload and PG-lost
checks in the six states after it (05 R84, R88, R96, R97, R99).
-/
namespace Sys2Proof.Machine

/-! ### A fault with its trigger (05 R97, R99) -/

/-- The trigger of a fault measured from a start that has it too: the recorder's other fields and every other block are
what the fault alone leaves. -/
theorem Faults.presented {i : SlotId} {code : Reason} {k : Nat} {s t : State} (h : Faults i code k s t) (x : Trigger) :
    Faults i code k (presentTrigger x s) (presentTrigger x t) := by
  have hframe := h.frame
  have hdown := h.poweredDown
  have hentered : ∀ {st}, Entered i st code k s t → Entered i st code k (presentTrigger x s) (presentTrigger x t) :=
    fun he => (he.of_start (s := presentTrigger x s) rfl rfl).of_fields rfl rfl rfl
  refine ⟨⟨hframe.pending, hframe.inReset, hframe.times, hframe.policy, hframe.keys, hframe.monitor, hframe.budget,
      hframe.rampLimit, hframe.settings, hframe.sets, hframe.sequencer, ?_, hframe.link, hframe.jobs, hframe.windows,
      hframe.active, hframe.run, hframe.powerQueue, hframe.roomQueue, hframe.slots⟩,
    ⟨hdown.grant, hdown.pin, hdown.threshold, hdown.planned, hdown.muted, hdown.sel, hdown.powerQueue, hdown.roomQueue,
      hdown.queued, hdown.deferred, hdown.aborted, hdown.reading, hdown.cut, hdown.uncut⟩,
    h.faultCount, h.allowance, h.screening, fun hr hc => ⟨hentered (h.retried hr hc).1, (h.retried hr hc).2⟩,
    fun hr => hentered (h.rested hr)⟩
  have htriggers := congrArg Recorder.triggers hframe.recorder
  refine (congrArg (fun r : Recorder => { r with triggers := t.recorder.triggers ++ [x] }) hframe.recorder).trans ?_
  rw [show t.recorder.triggers = s.recorder.triggers from htriggers]
  rfl

theorem faults_faultWithTrigger (i : SlotId) (code : Reason) (source : TriggerSource) (s : State) :
    Faults i code 1 (presentTrigger { source := source, slot := some i } s) (faultWithTrigger i code source s) :=
  (faults_takeFault i code s).presented _

/-! ### The ramp's success (05 R96) -/

theorem slot_rampHeld (i : SlotId) (s : State) : (rampHeld i s).slot i = { (s.slot i).enter .resetHold .none with
    overCurrentRun := 0, pgGoodRun := 0, pgLostRun := 0,
    threshold := some (overloadThreshold (s.slot i).power s.monitor.margin),
    timers := { StateTimers.idle with resetHold := some s.times.resetHold } } := by
  rw [rampHeld, slot_updSlot_self, slot_transition_self]
  rfl

theorem entered_rampHeld (i : SlotId) (s : State) : Entered i .resetHold .none 1 s (rampHeld i s) := by
  have hentered := entered_timed (i := i) (st := .resetHold) (r := .none) (s := s) (s' := s)
    (t := transition i .resetHold .none s) (T := { StateTimers.idle with resetHold := some s.times.resetHold })
    (fun c => by simp [Slot.timersFollow, Slot.enter, StateTimers.idle]) rfl rfl ⟨rfl, rfl, rfl⟩ ⟨rfl, rfl, rfl⟩ rfl rfl
    (Untouched.refl i _)
  refine hentered.of_fields ?_ rfl rfl
  rw [slot_rampHeld, slot_updSlot_self, slot_transition_self]
  rfl

/-- The slot of a ramp's success with its share of the ramps given back, before the examination that follows. -/
def rampShared (i : SlotId) (s : State) : State :=
  { rampHeld i s with arbiter := { s.arbiter with ramping := s.arbiter.ramping - 1 } }

theorem rampSuccess_shared (i : SlotId) (s : State) : rampSuccess i s = examine (rampShared i s) := by
  have harbiter : (rampHeld i s).arbiter = s.arbiter := (changes_rampHeld i s).blocks.arbiter
  rw [rampSuccess_eq, harbiter]
  rfl

theorem slotFrame_rampSuccess (i : SlotId) (s : State) : SlotFrame i s (rampSuccess i s) := by
  have hheld : SlotFrame i s (rampHeld i s) := (slotFrame_transition i _ _ s).trans (slotFrame_updSlot i _ _)
  have hshared : SlotFrame i s (rampShared i s) :=
    ⟨hheld.pending, hheld.inReset, hheld.times, hheld.policy, hheld.keys, hheld.monitor, rfl, rfl, hheld.settings,
      hheld.sets, hheld.sequencer, hheld.recorder, hheld.link, hheld.jobs, hheld.windows, hheld.active, hheld.run,
      fun _ _ hj => hj, hheld.roomQueue, hheld.slots⟩
  rw [rampSuccess_shared]
  exact hshared.trans (slotFrame_examine i _)

theorem keeps_rampSuccess (i : SlotId) (s : State) : Keeps i s (rampSuccess i s) := by
  have hheld : Keeps i s (rampShared i s) := by
    have hslot : (rampShared i s).slot i = _ := slot_rampHeld i s
    constructor <;> (rw [hslot]; rfl)
  rw [rampSuccess_shared]
  exact hheld.trans (keeps_examine i _)

/-- A slot that does not stand in the power queue is not the one the examination grants. -/
theorem untouched_rampSuccess {i : SlotId} {s : State} (hq : i ∉ s.arbiter.queue.map PowerEntry.slot) :
    Untouched i (rampHeld i s) (rampSuccess i s) := by
  rw [rampSuccess_shared]
  exact (Untouched.of_eq (t := rampHeld i s) (u := rampShared i s) rfl rfl rfl).trans (untouched_examine _ hq)

/-! ### Frames in POWERING -/

/-- The runs of a slot in POWERING after a frame (05 R84). -/
def countPowering (i : SlotId) (f : MonitorSample) (s : State) : State :=
  notePattern (decide (s.monitor.inrush < f.currents[i].toNat)) i (s.updSlot i fun c =>
    { c with overCurrentRun := countRun (decide (s.monitor.inrush < f.currents[i].toNat)) c.overCurrentRun,
             pgGoodRun := countRun (f.pg.getLsbD i.val) c.pgGoodRun })

theorem frameInPowering_eq (i : SlotId) (f : MonitorSample) (s : State) : frameInPowering i f s =
    if s.monitor.filter ≤ ((countPowering i f s).slot i).overCurrentRun then
      transmit (faultWithTrigger i .inrush .slotOvercurrent (countPowering i f s))
    else if s.monitor.filter ≤ ((countPowering i f s).slot i).pgGoodRun then
      transmit (rampSuccess i (countPowering i f s))
    else countPowering i f s := rfl

theorem frameInService_eq (i : SlotId) (f : MonitorSample) (s : State) : frameInService i f s =
    if s.monitor.filter ≤ ((countInService i f s).slot i).overCurrentRun then
      transmit (faultWithTrigger i .overload .slotOvercurrent (countInService i f s))
    else if s.monitor.filter ≤ ((countInService i f s).slot i).pgLostRun then
      transmit (faultWithTrigger i .pgLost .slotPowerLost (countInService i f s))
    else countInService i f s := rfl

/-- The pattern latch is the one thing outside the slot that a count may write. -/
theorem notePattern_setSlot (above : Bool) (i : SlotId) (c : Slot) (s : State) :
    notePattern above i (s.setSlot i c) = { s.setSlot i c with recorder :=
      if above = true then { s.recorder with pattern := s.recorder.pattern ||| BitVec.twoPow 12 i.val }
      else s.recorder } := by
  cases above <;> rfl

theorem countPowering_eq (i : SlotId) (f : MonitorSample) (c : Slot) (s : State) : countPowering i f (s.setSlot i c) =
    { s.setSlot i { c with
        overCurrentRun := if decide (s.monitor.inrush < f.currents[i].toNat) then c.overCurrentRun + 1 else 0
        pgGoodRun := if f.pg.getLsbD i.val then c.pgGoodRun + 1 else 0 } with
      recorder := if decide (s.monitor.inrush < f.currents[i].toNat) = true then
          { s.recorder with pattern := s.recorder.pattern ||| BitVec.twoPow 12 i.val } else s.recorder } := by
  rw [countPowering, updSlot_eq, slot_setSlot_self, setSlot_setSlot, notePattern_setSlot]
  rfl

/-! ### Frames in the checked states -/

theorem countRun_lost (good : Bool) (run : Nat) : countRun (!good) run = if good then 0 else run + 1 := by
  cases good <;> rfl

theorem countInService_eq {i : SlotId} {c : Slot} {th : Nat} (hth : c.threshold = some th) (f : MonitorSample) (s : State) :
    countInService i f (s.setSlot i c) = { s.setSlot i { c with
        overCurrentRun := if decide (th < f.currents[i].toNat) then c.overCurrentRun + 1 else 0
        pgLostRun := if f.pg.getLsbD i.val then 0 else c.pgLostRun + 1 } with
      recorder := if decide (th < f.currents[i].toNat) = true then
          { s.recorder with pattern := s.recorder.pattern ||| BitVec.twoPow 12 i.val } else s.recorder } := by
  have hheld : c.threshold.getD 4095 = th := by rw [hth]; rfl
  unfold countInService
  dsimp only
  rw [slot_setSlot_self, hheld, updSlot_eq, slot_setSlot_self, setSlot_setSlot, notePattern_setSlot, countRun_lost]
  rfl

theorem frameFaults_eq {i : SlotId} {s : State} {th : Nat} (hst : (s.slot i).state.checked = true)
    (hth : (s.slot i).threshold = some th) (f : MonitorSample) : frameFaults i f s =
      (decide (s.monitor.filter ≤
          if decide (th < f.currents[i].toNat) then (s.slot i).overCurrentRun + 1 else 0) ||
        decide (s.monitor.filter ≤ if f.pg.getLsbD i.val then 0 else (s.slot i).pgLostRun + 1)) := by
  have hcount := countInService_eq hth f s (i := i)
  rw [setSlot_slot] at hcount
  have hover : ((countInService i f s).slot i).overCurrentRun =
      if decide (th < f.currents[i].toNat) then (s.slot i).overCurrentRun + 1 else 0 := by
    rw [hcount]
    exact congrArg Slot.overCurrentRun (slot_setSlot_self s i _)
  have hlost : ((countInService i f s).slot i).pgLostRun =
      if f.pg.getLsbD i.val then 0 else (s.slot i).pgLostRun + 1 := by
    rw [hcount]
    exact congrArg Slot.pgLostRun (slot_setSlot_self s i _)
  unfold frameFaults
  dsimp only
  rw [hst, hover, hlost, Bool.true_and]

/-! ### The frame taken -/

theorem exec_slotFrame {s : State} {i : SlotId} {f : MonitorFrame} {rest : List MonitorFrame}
    (hlive : s.inReset = false) (hf : (s.slot i).inbox.frames = f :: rest) : exec (.slotFrameTaken i) s =
      .next (takeFrame i f.sample ((catchUpIf (frameFaults i f.sample s) i s).updSlot i fun x =>
        { x with inbox := { x.inbox with frames := rest } })) := by
  show whenLive (takeNextFrame i) s = _
  rw [whenLive, if_neg (by simp [hlive]), takeNextFrame, hf]

end Sys2Proof.Machine
end

section
/-!
PROOF. SLOT_FRAME_TAKEN by the state of its slot (05 R83, R84, R88, R96, R97, R99).
-/
namespace Sys2Proof.Machine

theorem takeFrame_powering {i : SlotId} {s : State} (hst : (s.slot i).state = .powering) (f : MonitorSample) :
    takeFrame i f s = frameInPowering i f s := by
  rw [takeFrame, if_pos hst]

theorem ne_powering_of_checked {st : SlotState} (h : st.checked = true) : st ≠ .powering := by
  rintro rfl
  cases h

theorem takeFrame_checked {i : SlotId} {s : State} (hst : (s.slot i).state.checked = true) (f : MonitorSample) :
    takeFrame i f s = frameInService i f s := by
  rw [takeFrame, if_neg (ne_powering_of_checked hst), if_pos hst]

theorem takeFrame_discards {i : SlotId} {s : State} (hp : (s.slot i).state ≠ .powering)
    (hst : (s.slot i).state.checked = false) (f : MonitorSample) : takeFrame i f s = s := by
  rw [takeFrame, if_neg hp, if_neg (by rw [hst]; exact Bool.false_ne_true)]

/-- A frame that is no fault of a checked slot is taken as it comes. -/
theorem exec_slotFrame_plain {s : State} {i : SlotId} {f : MonitorFrame} {rest : List MonitorFrame}
    (hlive : s.inReset = false) (hf : (s.slot i).inbox.frames = f :: rest) (hno : frameFaults i f.sample s = false) :
    exec (.slotFrameTaken i) s = .next (takeFrame i f.sample
      (s.setSlot i { s.slot i with inbox := { (s.slot i).inbox with frames := rest } })) := by
  rw [exec_slotFrame hlive hf, hno]
  rfl

/-- One that is comes after the completions already sent to the slot (02 R45). -/
theorem exec_slotFrame_fault {s : State} {i : SlotId} {f : MonitorFrame} {rest : List MonitorFrame}
    (hlive : s.inReset = false) (hf : (s.slot i).inbox.frames = f :: rest) (hyes : frameFaults i f.sample s = true) :
    exec (.slotFrameTaken i) s = .next (takeFrame i f.sample ((catchUp i s).setSlot i
      { (catchUp i s).slot i with inbox := { ((catchUp i s).slot i).inbox with frames := rest } })) := by
  rw [exec_slotFrame hlive hf, hyes]
  rfl

theorem frameFaults_unchecked {i : SlotId} {s : State} (h : (s.slot i).state.checked = false) (f : MonitorSample) :
    frameFaults i f s = false := by
  unfold frameFaults
  dsimp only
  rw [h, Bool.false_and]

/-- Settles O42. -/
theorem slotFrameRunsChecks : Obligations.SlotFrameRunsChecks := by
  intro s i f rest hlive hf taken c noted powering runOver good ramped trigger checked answers
  refine ⟨fun hst => ?powering, fun th hst hth => ?checked_, fun hst => ?discarded⟩
  case powering =>
    have hcount : countPowering i f.sample (s.setSlot i c) = ramped := countPowering_eq i f.sample c s
    have hslot : ramped.slot i = { c with overCurrentRun := runOver, pgGoodRun := good } := slot_setSlot_self s i _
    have hrun : (ramped.slot i).overCurrentRun = runOver := by rw [hslot]
    have hgood : (ramped.slot i).pgGoodRun = good := by rw [hslot]
    have hexec : exec (.slotFrameTaken i) s = .next (frameInPowering i f.sample (s.setSlot i c)) := by
      rw [exec_slotFrame_plain hlive hf (frameFaults_unchecked (by rw [show (s.slot i).state = _ from hst]; rfl) _)]
      exact congrArg Host.Outcome.next (takeFrame_powering (by rw [slot_setSlot_self]; exact hst) f.sample)
    rw [frameInPowering_eq, hcount, hrun, hgood] at hexec
    refine ⟨fun hover hpg => ?_, fun hover => ?_, fun hover hpg hq => ?_⟩
    · rw [hexec]
      exact congrArg Host.Outcome.next ((if_neg (Nat.not_le.2 hover)).trans (if_neg (Nat.not_le.2 hpg)))
    · exact ⟨_, hexec.trans (congrArg Host.Outcome.next (if_pos hover)),
        (quiet_faultWithTrigger i .inrush .slotOvercurrent ramped).replies, faults_faultWithTrigger i _ _ ramped⟩
    · have huntouched := untouched_rampSuccess (i := i) (s := ramped) hq
      have hend : (rampSuccess i ramped).slot i = _ := huntouched.slot.trans (slot_rampHeld i ramped)
      have hkeeps : Keeps i s ramped := by constructor <;> rw [hslot]
      refine ⟨_, hexec.trans (congrArg Host.Outcome.next ((if_neg (Nat.not_le.2 hover)).trans (if_pos hpg))),
        (quiet_rampSuccess i ramped).replies, (entered_rampHeld i ramped).of_untouched huntouched,
        slotFrame_rampSuccess i ramped, hkeeps.trans (keeps_rampSuccess i ramped), ?_, ?_, ?_, ?_, ?_, ?_, fun hempty => ?_⟩
      · rw [hend]
        rfl
      · rw [hend]
      · rw [hend]
      · rw [hend, hslot]
        rfl
      · rw [hend, hslot]
        exact congrArg some (overloadThreshold_eq c s.monitor.margin)
      · rw [rampSuccess_shared]
        exact (examine_arbiter _).2.1
      · rw [rampSuccess_shared]
        exact congrArg State.arbiter (examine_empty (rampShared i ramped) hempty)
  case checked_ =>
    intro above run lost held faults
    have hlit : (s.slot i).state.checked = true := (checked_iff _).2 hst
    have hframe := frameFaults_eq hlit hth f.sample
    -- the frame in a state where the slot's checks are those of the start
    have hservice : ∀ u : State, checked (u.slot i).state → (u.slot i).checkFields = (s.slot i).checkFields →
        u.monitor = s.monitor → takeFrame i f.sample (u.setSlot i (taken u)) =
          if s.monitor.filter ≤ run then transmit (faultWithTrigger i .overload .slotOvercurrent (held u))
          else if s.monitor.filter ≤ lost then transmit (faultWithTrigger i .pgLost .slotPowerLost (held u))
          else held u := by
      intro u hu hfields hmonitor
      simp only [Slot.checkFields, Prod.mk.injEq] at hfields
      obtain ⟨hover, hpglost, hthreshold⟩ := hfields
      have hcount : countInService i f.sample (u.setSlot i (taken u)) = held u := by
        rw [countInService_eq (c := taken u) (th := th) (hthreshold.trans hth)]
        show _ = ({ u.setSlot i { taken u with
            overCurrentRun := if above then (s.slot i).overCurrentRun + 1 else 0
            pgLostRun := if f.sample.pg.getLsbD i.val then 0 else (s.slot i).pgLostRun + 1 } with
          recorder := noted above u.recorder } : State)
        rw [← hover, ← hpglost]
      have hslot : (held u).slot i = { taken u with overCurrentRun := run, pgLostRun := lost } := slot_setSlot_self u i _
      have hrun : ((held u).slot i).overCurrentRun = run := by rw [hslot]
      have hlost : ((held u).slot i).pgLostRun = lost := by rw [hslot]
      have hfilter : (u.setSlot i (taken u)).monitor.filter = s.monitor.filter := congrArg Monitor.filter hmonitor
      rw [takeFrame_checked (by rw [slot_setSlot_self]; exact (checked_iff _).2 hu), frameInService_eq, hcount, hrun, hlost,
        hfilter]
    -- a fault, from the state that the completions leave
    have hfaults : ∀ code source, frameFaults i f.sample s = true →
        (∀ u, (if s.monitor.filter ≤ run then transmit (faultWithTrigger i .overload .slotOvercurrent (held u))
          else if s.monitor.filter ≤ lost then transmit (faultWithTrigger i .pgLost .slotPowerLost (held u))
          else held u) = transmit (faultWithTrigger i code source (held u))) → faults code source := by
      intro code source hyes hchoice
      have hexec := exec_slotFrame_fault hlive hf hyes
      refine ⟨catchUp i s, (caughtUp_iff hlive).2 rfl, catchUp_nothing, fun hstill => ?_, fun hleft => ?_⟩
      · have hfields : ((catchUp i s).slot i).checkFields = (s.slot i).checkFields := by
          rcases checks_catchUp hlit with ⟨-, hfields⟩ | hout | hout
          · exact hfields
          · exact absurd (show checked .cooldown from hout ▸ hstill) (by decide)
          · exact absurd (show checked .faulted from hout ▸ hstill) (by decide)
        exact ⟨_, hexec.trans (congrArg Host.Outcome.next
            ((hservice _ hstill hfields (catchUp_monitor i s)).trans (hchoice _))),
          (quiet_faultWithTrigger i code source (held (catchUp i s))).replies.trans (quiet_catchUp i s).replies,
          faults_faultWithTrigger i code source _⟩
      · refine hexec.trans (congrArg Host.Outcome.next (takeFrame_discards ?_ ?_ f.sample)) <;> rw [slot_setSlot_self]
        · rcases checks_catchUp hlit with ⟨hin, -⟩ | hout | hout
          · exact absurd ((checked_iff _).1 hin) hleft
          · exact fun h => absurd (hout.symm.trans h) (by decide)
          · exact fun h => absurd (hout.symm.trans h) (by decide)
        · exact Bool.eq_false_iff.2 fun h => hleft ((checked_iff _).1 h)
    refine ⟨fun hover hpg => ?_, fun hover => ?_, fun hover hpg => ?_⟩
    · have hno : frameFaults i f.sample s = false := by
        rw [hframe, Bool.or_eq_false_iff]
        exact ⟨decide_eq_false (Nat.not_le.2 hover), decide_eq_false (Nat.not_le.2 hpg)⟩
      rw [exec_slotFrame_plain hlive hf hno]
      exact congrArg Host.Outcome.next ((hservice s hst rfl rfl).trans
        ((if_neg (Nat.not_le.2 hover)).trans (if_neg (Nat.not_le.2 hpg))))
    · refine hfaults .overload .slotOvercurrent ?_ fun u => if_pos hover
      rw [hframe, Bool.or_eq_true]
      exact .inl (decide_eq_true hover)
    · refine hfaults .pgLost .slotPowerLost ?_ fun u => (if_neg (Nat.not_le.2 hover)).trans (if_pos hpg)
      rw [hframe, Bool.or_eq_true]
      exact .inr (decide_eq_true hpg)
  case discarded =>
    have hunchecked : (s.slot i).state.checked = false := Bool.eq_false_iff.2 fun h =>
      hst (List.mem_cons_of_mem _ ((checked_iff _).1 h))
    rw [exec_slotFrame_plain hlive hf (frameFaults_unchecked hunchecked _)]
    refine congrArg Host.Outcome.next (takeFrame_discards ?_ ?_ f.sample) <;> rw [slot_setSlot_self]
    · exact fun h => hst (h ▸ List.mem_cons_self)
    · exact hunchecked

end Sys2Proof.Machine
end

section
/-!
PROOF. The setup bus engine: what a byte boundary, an end of the transaction and a byte not completed in time make of the
job in progress, and what has passed on its pair (02 R31 to R44, R46).
-/
namespace Sys2Proof.Machine

/-! ### A job's end (02 R42, R46) -/

theorem startJob_next {s : State} {j : Job} {q : List Job} (hidle : s.engine.current = none)
    (hq : s.engine.queue = j :: q) : startJob s = { s with engine := { s.engine with
      queue := q
      current := some { job := j, held := decide ((s.slot j.slot).standby = .settling), nextByte := 0, received := [],
                        abort := false, cutBytes := [] } } } := by
  unfold startJob
  rw [hidle, hq]

theorem startJob_none {s : State} (hq : s.engine.queue = []) : startJob s = s := by
  unfold startJob
  rw [hq]
  cases s.engine.current <;> rfl

/-- The end of a job after its transaction has passed on the pair. -/
theorem jobEnds_endJob (cur : CurrentJob) (outcome : JobOutcome) (data : List Byte) (words : Nat) (index : Option Nat)
    (bytes : List BusSymbol) (s : State) : JobEnds cur outcome data words index s
      (endJob cur outcome data words index (passOnPair cur bytes s)) := by
  have hslot : ∀ j, (endJob cur outcome data words index (passOnPair cur bytes s)).slot j = (sendCompletion cur.job.slot
      { kind := cur.job.transaction.kind, outcome := outcome, data := data, words := words, byteIndex := index } s).slot j :=
    fun j => slot_startJob _ j
  have hstandby : ∀ (c : Completion) j, ((sendCompletion cur.job.slot c s).slot j).standby = (s.slot j).standby := by
    intro c j
    by_cases hj : j = cur.job.slot
    · subst hj; rw [sendCompletion, slot_updSlot_self]
    · rw [sendCompletion, slot_updSlot_ne _ _ hj]
  refine ⟨?_, fun j hj => ?_, ?_, startJob_deferred _, fun hnone => ?_, fun j queue hnext => ?_⟩
  · rw [hslot, sendCompletion, slot_updSlot_self]
  · rw [hslot, sendCompletion, slot_updSlot_ne _ _ hj]
  · unfold endJob
    dsimp only
    rw [startJob_eq]
    rfl
  · unfold endJob
    dsimp only
    rw [startJob_none hnone]
    exact ⟨hnone, rfl⟩
  · unfold endJob
    dsimp only
    rw [startJob_next rfl hnext]
    refine ⟨rfl, ?_⟩
    rw [← hstandby { kind := cur.job.transaction.kind, outcome := outcome, data := data, words := words,
                     byteIndex := index } j.slot]
    rfl

/-! ### The ends of a transaction (02 R39, R41, R44) -/

theorem exec_jobComplete {s : State} (hlive : s.inReset = false) (how : BusEnd) :
    exec (.jobComplete how) s = .next (completeJob how s) := whenLive_live hlive

theorem exec_busTimeout {s : State} (hlive : s.inReset = false) (late : LateByte) :
    exec (.busTimeout late) s = .next (timeOutByte late s) := whenLive_live hlive

theorem exec_settleExpiry {s : State} (hlive : s.inReset = false) (i : SlotId) :
    exec (.settleExpiry i) s = .next (expireSettle i s) := whenLive_live hlive

section
variable {s : State} {cur : CurrentJob} (hc : s.engine.current = some cur) (hopen : cur.held = false)
include hc hopen

theorem completeJob_nak {n : Nat} (hfits : cur.fits (.nak n) = true) (hreads : cur.abort = false) :
    completeJob (.nak n) s = endJob cur .cardNak [] 0 (some (cur.nextByte + n))
      (passOnPair cur (endSymbols s.sets cur (.nak n)) s) := by
  simp [completeJob, hc, hopen, hfits, hreads]

theorem completeJob_boundary {n : Nat} {data : List Byte} (hfits : cur.fits (.boundary n data) = true)
    (hreads : cur.abort = false) : completeJob (.boundary n data) s = reachBoundary cur n data s := by
  simp [completeJob, hc, hopen, hfits, hreads]

/-- Every byte has passed, and the answer byte, if any, is one the transaction knows. -/
theorem completeJob_finished {data : List Byte} {outcome : JobOutcome} (hfits : cur.fits (.finished data) = true)
    (hreads : cur.abort = false)
    (hknown : finishedOutcome cur.job.transaction (cur.received ++ data) = some outcome) :
    completeJob (.finished data) s = endJob cur outcome (returnedData cur.job.transaction (cur.received ++ data))
      cur.job.transaction.wordCount none (passOnPair cur (endSymbols s.sets cur (.finished data)) s) := by
  simp [completeJob, hc, hopen, hfits, hreads, hknown]

theorem completeJob_badAnswer {data : List Byte} (hfits : cur.fits (.finished data) = true)
    (hreads : cur.abort = false) (hbad : finishedOutcome cur.job.transaction (cur.received ++ data) = none) :
    completeJob (.finished data) s = endJob cur .cardNak [] 0 (some cur.job.transaction.sentLength)
      (passOnPair cur (endSymbols s.sets cur (.finished data)) s) := by
  simp [completeJob, hc, hopen, hfits, hreads, hbad]

/-- What has passed on the pair when a transaction ends, whatever its outcome. -/
theorem completeJob_passes {how : BusEnd} (hfits : cur.fits how = true)
    (hends : cur.abort = true ∨ ∀ n data, how ≠ .boundary n data) : (completeJob how s).engine.ended =
      some { slot := cur.job.slot, symbols := .start :: endSymbols s.sets cur how ++ [.stop] } := by
  cases habort : cur.abort with
  | true => rw [completeJob_aborted hc hopen hfits habort, ended_endJob, ended_passOnPair]
  | false =>
    rw [habort] at hends
    cases how with
    | finished data =>
      cases hknown : finishedOutcome cur.job.transaction (cur.received ++ data) with
      | some outcome => rw [completeJob_finished hc hopen hfits habort hknown, ended_endJob, ended_passOnPair]
      | none => rw [completeJob_badAnswer hc hopen hfits habort hknown, ended_endJob, ended_passOnPair]
    | nak n => rw [completeJob_nak hc hopen hfits habort, ended_endJob, ended_passOnPair]
    | boundary n data => exact absurd rfl (hends.resolve_left Bool.false_ne_true n data)

end

/-! ### The pair (02 R31, R32) -/

theorem pairLevels_released {s : State} {cur : CurrentJob} {i : SlotId} (hc : s.engine.current = some cur)
    (h : i ≠ cur.job.slot ∨ cur.held = true) : s.pairLevels i = (true, true) := by
  unfold State.pairLevels
  rw [hc]
  dsimp only
  rcases h with hi | hheld
  · rw [if_neg fun hsame => hi hsame.symm]
  · rw [CurrentJob.symbols, if_pos hheld]
    split <;> rfl

/-! ### The answer byte (02 R36, R38) -/

/-- A transaction's answer is good unless it is an answer byte that its kind does not know. -/
theorem finishedOutcome_known {t : Transaction} {whole : List Byte}
    (hunlock : ∀ k key, t = .unlock k key → whole = [0x3C] ∨ whole = [0xC3])
    (hcommit : ∀ total, t = .commit total → whole = [0x5A] ∨ whole = [0xA5]) :
    (finishedOutcome t whole).isNone = false := by
  cases t with
  | identRead | statusRead | blockWrite => rfl
  | unlock k key => rcases hunlock k key rfl with h | h <;> (rw [h]; rfl)
  | commit total => rcases hcommit total rfl with h | h <;> (rw [h]; rfl)

theorem finishedOutcome_unlock (k : Fin 4) (key : List Byte) (b : Byte) : finishedOutcome (.unlock k key) [b] =
    if b = 0x3C then some .granted else if b = 0xC3 then some .denied else none := rfl

theorem finishedOutcome_commit (total : Nat) (b : Byte) : finishedOutcome (.commit total) [b] =
    if b = 0x5A then some .accepted else if b = 0xA5 then some .rejected else none := rfl

theorem finishedOutcome_unknown {t : Transaction} {b : Byte}
    (h : (∃ k key, t = .unlock k key ∧ b ∉ [0x3C, 0xC3]) ∨ ∃ total, t = .commit total ∧ b ∉ [0x5A, 0xA5]) :
    finishedOutcome t [b] = none := by
  rcases h with ⟨k, key, rfl, hb⟩ | ⟨total, rfl, hb⟩
  · simp only [List.mem_cons, List.not_mem_nil, or_false, not_or] at hb
    rw [finishedOutcome_unlock, if_neg hb.1, if_neg hb.2]
  · simp only [List.mem_cons, List.not_mem_nil, or_false, not_or] at hb
    rw [finishedOutcome_commit, if_neg hb.1, if_neg hb.2]

end Sys2Proof.Machine
end

section
/-!
PROOF. The engine's ends put together (02 R31 to R39, R41, R42, R44, R46).
-/
namespace Sys2Proof.Machine

/-! ### Which ends fit the transaction -/

theorem fits_nak {cur : CurrentJob} {n : Nat} (h : cur.nextByte + n < cur.job.transaction.sentLength) :
    cur.fits (.nak n) = true := decide_eq_true h

theorem fits_finished {cur : CurrentJob} {data : List Byte}
    (h : cur.received.length + data.length = cur.job.transaction.answerLength) : cur.fits (.finished data) = true :=
  decide_eq_true h

theorem fits_whole {cur : CurrentJob} {data whole : List Byte} (hwhole : cur.received ++ data = whole)
    (h : whole.length = cur.job.transaction.answerLength) : cur.fits (.finished data) = true :=
  fits_finished (by rw [← h, ← hwhole, List.length_append])

/-! ### What has passed (02 R31) -/

theorem endSymbols_nak {sets : Vector ParamSet 8} {cur : CurrentJob} {n : Nat} {b : Byte}
    (hb : (cur.sends sets)[cur.nextByte + n]? = some b) : endSymbols sets cur (.nak n) =
      acceptedSymbols ((cur.sends sets).take (cur.nextByte + n) ++ cur.received) ++ byteSymbols true b := by
  rw [endSymbols, CurrentJob.passed, hb, List.append_nil]
  rfl

theorem endSymbols_good {sets : Vector ParamSet 8} {cur : CurrentJob} {data : List Byte}
    (h : (finishedOutcome cur.job.transaction (cur.received ++ data)).isNone = false) :
    endSymbols sets cur (.finished data) = acceptedSymbols (cur.sends sets ++ (cur.received ++ data)) := by
  rw [endSymbols, h, acceptedSymbols_append]
  rfl

theorem endSymbols_bad {sets : Vector ParamSet 8} {cur : CurrentJob} {data : List Byte} {b : Byte}
    (hwhole : cur.received ++ data = [b]) (h : finishedOutcome cur.job.transaction [b] = none) :
    endSymbols sets cur (.finished data) = acceptedSymbols (cur.sends sets) ++ byteSymbols true b := by
  rw [endSymbols, hwhole, h, List.flatMap_singleton]
  rfl

/-! ### The standby settle time (02 R33) -/

theorem expireSettle_settles {i : SlotId} {s : State} (h : (s.slot i).standby = .settling) : expireSettle i s =
    { s.updSlot i (fun c => { c with standby := .settled }) with engine := openHeld i s.engine } := if_pos h

theorem openHeld_current {i : SlotId} {e : Engine} {cur : CurrentJob} (hc : e.current = some cur) : openHeld i e =
    { e with current := some (if cur.job.slot = i then { cur with held := false } else cur) } := by
  rw [openHeld, hc]
  rfl

/-- Settles O44. -/
theorem engineEndsJobs : Obligations.EngineEndsJobs := by
  intro s cur hlive hc read sent left answered byte passes ends done
  have hread : cur.job.transaction.sentBytes s.sets = read := by
    simp only [read]
    cases cur.job.transaction <;> rfl
  have hsent : cur.sends s.sets = sent := by rw [CurrentJob.sends, hread]
  have hreaches : ∀ {n data}, left n data → cur.reaches n data = true := fun h => (reaches_iff cur _ _).2 h
  have hjob : ∀ {how t}, completeJob how s = t → exec (.jobComplete how) s = .next t := fun h => by
    rw [exec_jobComplete hlive, h]
  have hlate : ∀ {late t}, timeOutByte late s = t → exec (.busTimeout late) s = .next t := fun h => by
    rw [exec_busTimeout hlive, h]
  -- a job's end, and what has passed on its pair
  have hends : ∀ {how outcome data words index bytes},
      completeJob how s = endJob cur outcome data words index (passOnPair cur bytes s) →
        ends (.jobComplete how) outcome data words index := fun h => ⟨_, hjob h, jobEnds_endJob ..⟩
  have hpasses : ∀ {how bytes}, cur.held = false → cur.fits how = true →
      (cur.abort = true ∨ ∀ n data, how ≠ .boundary n data) → endSymbols s.sets cur how = bytes →
        passes (.jobComplete how) bytes := fun hopen hfits hkind hbytes =>
    ⟨_, hjob rfl, by rw [completeJob_passes hc hopen hfits hkind, hbytes]⟩
  refine ⟨fun hopen habort => ⟨fun data hall => ?abortedWhole, fun n hn => ?abortedNak,
      fun n data hleft => ⟨?abortedBoundary, ?abortedLate⟩⟩,
    fun hopen hreads => ⟨fun n hn => ?nak, fun n data hleft => ⟨?late, ?boundary⟩, fun data => ?finished⟩,
    fun n data => ⟨fun h => ⟨?misfitLate, ?misfitBoundary⟩, fun h => ?misfitFinished, fun h => ?misfitNak⟩,
    fun hopen => ⟨fun n b hn hb => ?passedNak, fun n data hleft => ⟨?passedLate, fun habort => ?passedBoundary⟩,
      fun data => ?passedFinished⟩, ?request, fun i => ⟨pairLevels_released hc, fun hsettling => ?settles, fun hno => ?settled⟩⟩
  case abortedWhole => exact hends (completeJob_aborted hc hopen (fits_finished hall) habort)
  case abortedNak => exact hends (completeJob_aborted hc hopen (fits_nak hn) habort)
  case abortedBoundary => exact hends (completeJob_aborted (how := .boundary n data) hc hopen (hreaches hleft) habort)
  case abortedLate =>
    have hout := timeOutByte_open (late := ⟨n, data⟩) hc hopen (hreaches hleft)
    rw [habort] at hout
    exact ⟨_, hlate hout, jobEnds_endJob ..⟩
  case nak => exact hends (completeJob_nak hc hopen (fits_nak hn) hreads)
  case late =>
    have hout := timeOutByte_open (late := ⟨n, data⟩) hc hopen (hreaches hleft)
    rw [hreads] at hout
    exact ⟨_, hlate hout, jobEnds_endJob ..⟩
  case boundary => exact hjob (completeJob_boundary hc hopen (hreaches hleft) hreads)
  case finished =>
    -- the end of a transaction whose answer is good, and of one whose answer byte is not
    have hgood : ∀ {whole outcome}, cur.received ++ data = whole → whole.length = cur.job.transaction.answerLength →
        finishedOutcome cur.job.transaction whole = some outcome →
          done data outcome (returnedData cur.job.transaction whole) cur.job.transaction.wordCount none := by
      rintro _ outcome rfl hlen hknown
      exact hends (completeJob_finished hc hopen (fits_whole rfl hlen) hreads hknown)
    have hbad : ∀ {b}, cur.received ++ data = [b] → cur.job.transaction.answerLength = 1 →
        finishedOutcome cur.job.transaction [b] = none →
          done data .cardNak [] 0 (some cur.job.transaction.sentLength) := by
      intro b hb hlen hnone
      exact hends (completeJob_badAnswer hc hopen (fits_whole hb hlen.symm) hreads (by rw [hb]; exact hnone))
    intro whole
    refine ⟨fun offset count ht hlen => ?_, fun status ht hw => ?_, fun set offset count ht hw => ?_,
      fun k key b ht hw => ?_, fun total b ht hw => ?_⟩
    all_goals rw [ht] at hgood hbad
    · exact hgood rfl hlen rfl
    · exact hgood hw rfl rfl
    · exact hgood hw rfl rfl
    · by_cases hgranted : b = 0x3C
      · rw [if_pos hgranted]
        exact hgood hw rfl ((finishedOutcome_unlock k key b).trans (if_pos hgranted))
      · rw [if_neg hgranted]
        by_cases hdenied : b = 0xC3
        · rw [if_pos hdenied]
          exact hgood hw rfl ((finishedOutcome_unlock k key b).trans ((if_neg hgranted).trans (if_pos hdenied)))
        · rw [if_neg hdenied]
          exact hbad hw rfl ((finishedOutcome_unlock k key b).trans ((if_neg hgranted).trans (if_neg hdenied)))
    · by_cases haccepted : b = 0x5A
      · rw [if_pos haccepted]
        exact hgood hw rfl ((finishedOutcome_commit total b).trans (if_pos haccepted))
      · rw [if_neg haccepted]
        by_cases hrejected : b = 0xA5
        · rw [if_pos hrejected]
          exact hgood hw rfl ((finishedOutcome_commit total b).trans ((if_neg haccepted).trans (if_pos hrejected)))
        · rw [if_neg hrejected]
          exact hbad hw rfl ((finishedOutcome_commit total b).trans ((if_neg haccepted).trans (if_neg hrejected)))
  case misfitLate =>
    exact hlate (timeOutByte_misfit hc (h.imp_right fun hno => Bool.eq_false_iff.2 fun hyes =>
      hno ((reaches_iff cur n data).1 hyes)))
  case misfitBoundary =>
    exact hjob (completeJob_misfit hc (h.imp_right fun hno => Bool.eq_false_iff.2 fun hyes =>
      hno ((reaches_iff cur n data).1 hyes)))
  case misfitFinished => exact hjob (completeJob_misfit hc (h.imp_right fun hno => decide_eq_false hno))
  case misfitNak =>
    exact hjob (completeJob_misfit hc (h.imp_right fun hbeyond => decide_eq_false (Nat.not_lt.2 hbeyond)))
  case passedNak =>
    rw [← hsent] at hb ⊢
    exact hpasses hopen (fits_nak hn) (.inr fun _ _ h => BusEnd.noConfusion h) (endSymbols_nak hb)
  case passedLate =>
    rw [← hsent]
    exact ⟨_, hlate (timeOutByte_open (late := ⟨n, data⟩) hc hopen (hreaches hleft)),
      by rw [ended_endJob, ended_passOnPair]; rfl⟩
  case passedBoundary =>
    rw [← hsent]
    exact hpasses (how := .boundary n data) hopen (hreaches hleft) (.inl habort) rfl
  case passedFinished =>
    intro whole hall
    have hkind : cur.abort = true ∨ ∀ n d, BusEnd.finished data ≠ .boundary n d := .inr fun _ _ h => BusEnd.noConfusion h
    rw [← hsent]
    refine ⟨fun b hw hunknown => ?_, fun hunlock hcommit => ?_⟩
    · exact hpasses hopen (fits_finished hall) hkind (endSymbols_bad hw (finishedOutcome_unknown hunknown))
    · exact hpasses hopen (fits_finished hall) hkind (endSymbols_good (finishedOutcome_known hunlock hcommit))
  case request => rw [CurrentJob.requestAbort, hread]
  case settles =>
    refine ⟨_, (exec_settleExpiry hlive i).trans (congrArg Host.Outcome.next (expireSettle_settles hsettling)), rfl, rfl, ?_⟩
    exact openHeld_current hc
  case settled => rw [exec_settleExpiry hlive, expireSettle, if_neg hno]

end Sys2Proof.Machine
end

section
/-!
PROOF. What refusals under a lowered budget and an examination of the power queue do to each slot and to the blocks beside
them (05 R86, R92, R94).
-/
namespace Sys2Proof.Machine

/-! ### The blocks that no slot's event writes -/

/-- What the events of any slots leave as it is: the settings, the sets but for their pins, the sequencer but for its
windows, the recorder but for its gate reports. -/
structure Aside (s t : State) : Prop where
  pending : t.pending = s.pending
  times : t.times = s.times
  policy : t.policy = s.policy
  keys : t.keys = s.keys
  monitor : t.monitor = s.monitor
  budget : t.arbiter.budget = s.arbiter.budget
  rampLimit : t.arbiter.rampLimit = s.arbiter.rampLimit
  settings : t.planner.settings = s.planner.settings
  sets : ∀ n : Fin 8, { t.sets[n] with pins := s.sets[n].pins } = s.sets[n]
  sequencer : { t.sequencer with active := s.sequencer.active, run := s.sequencer.run } = s.sequencer
  recorder : { t.recorder with gateReports := s.recorder.gateReports } = s.recorder

theorem Aside.refl (s : State) : Aside s s := ⟨rfl, rfl, rfl, rfl, rfl, rfl, rfl, rfl, fun _ => rfl, rfl, rfl⟩

theorem Aside.trans {a b c : State} (h1 : Aside a b) (h2 : Aside b c) : Aside a c :=
  ⟨h2.pending.trans h1.pending, h2.times.trans h1.times, h2.policy.trans h1.policy, h2.keys.trans h1.keys,
    h2.monitor.trans h1.monitor, h2.budget.trans h1.budget, h2.rampLimit.trans h1.rampLimit,
    h2.settings.trans h1.settings, fun n => ParamSet.pins_trans (h1.sets n) (h2.sets n),
    Sequencer.run_trans h1.sequencer h2.sequencer, Recorder.gate_trans h1.recorder h2.recorder⟩

theorem SlotFrame.aside {i : SlotId} {s t : State} (h : SlotFrame i s t) : Aside s t :=
  ⟨h.pending, h.times, h.policy, h.keys, h.monitor, h.budget, h.rampLimit, h.settings, h.sets, h.sequencer, h.recorder⟩

/-! ### Events elsewhere -/

/-- An entry measured from before events that did not touch the slot. -/
theorem Entered.after_untouched {i : SlotId} {st : SlotState} {r : Reason} {k : Nat} {s s' t : State}
    (h : Entered i st r k s' t) (hu : Untouched i s s') : Entered i st r k s t := by
  have hgate := h.gate
  rw [hu.gate, hu.slot] at hgate
  exact ⟨h.state, h.reason, h.lines, h.timers, hu.slot ▸ h.transitions, h.posted, hgate, hu.slot ▸ h.early,
    hu.slot ▸ h.late, hu.slot ▸ h.traceRef⟩

/-! ### A refusal under a lowered budget (05 R86, R94) -/

/-- A queued slot whose steady power is above the budget in force is refused. -/
def refusePower (i : SlotId) (s : State) : State := transition i .refused .powerRange (powerDown i s)

theorem refuseQueued_cons (e : PowerEntry) (rest : List PowerEntry) (s : State) : refuseQueued (e :: rest) s =
    refuseQueued rest (if s.arbiter.budget < e.power then refusePower e.slot s else s) := rfl

theorem startFields_powerDown (i : SlotId) (s : State) : ((powerDown i s).slot i).startFields = (s.slot i).startFields := by
  obtain ⟨q, hslot⟩ := powerDown_slot i s
  rw [hslot]
  rfl

theorem entered_refusePower (i : SlotId) (s : State) : Entered i .refused .powerRange 1 s (refusePower i s) := by
  have hentered : Entered i .refused .powerRange 1 (powerDown i s) (refusePower i s) := entered_transition rfl
  exact hentered.of_start (startFields_powerDown i s) (powerDown_gateReports i s)

theorem untouched_refusePower {i j : SlotId} (h : i ≠ j) (s : State) : Untouched i s (refusePower j s) :=
  Untouched.trans ⟨slot_powerDown_ne j s h, by rw [powerDown_gateReports], fun n hn _ => by rw [powerDown_link]; exact hn⟩
    (untouched_transition _ _ _ h)

theorem slotFrame_refusePower (i : SlotId) (s : State) : SlotFrame i s (refusePower i s) :=
  (slotFrame_powerDown i s).trans (slotFrame_transition i _ _ _)

theorem refusePower_queue (i : SlotId) (s : State) : (refusePower i s).arbiter.queue =
    s.arbiter.queue.filter fun e => decide (e.slot ≠ i) := by
  rw [refusePower, transition_arbiter, powerDown_queue]

/-- One entry's judgement: the budget stands, and no other slot is touched. -/
theorem aside_refuseStep (e : PowerEntry) (s : State) :
    Aside s (if s.arbiter.budget < e.power then refusePower e.slot s else s) := by
  split
  · exact (slotFrame_refusePower e.slot s).aside
  · exact Aside.refl s

theorem aside_refuseQueued (q : List PowerEntry) : ∀ s : State, Aside s (refuseQueued q s) := by
  induction q with
  | nil => exact Aside.refl
  | cons e q ih => exact fun s => (aside_refuseStep e s).trans (ih _)

theorem untouched_refuseQueued {i : SlotId} (q : List PowerEntry) : ∀ s : State,
    (∀ e ∈ q, s.arbiter.budget < e.power → i ≠ e.slot) → Untouched i s (refuseQueued q s) := by
  induction q with
  | nil => exact fun s _ => Untouched.refl i s
  | cons e q ih =>
    intro s h
    have hbudget := (aside_refuseStep e s).budget
    rw [refuseQueued_cons]
    refine Untouched.trans ?_ (ih _ fun x hx hlow => h x (List.mem_cons_of_mem e hx) (by rwa [hbudget] at hlow))
    split
    · next hlow => exact untouched_refusePower (h e List.mem_cons_self hlow) s
    · exact Untouched.refl i s

theorem entered_refuseQueued {e : PowerEntry} (q : List PowerEntry) : ∀ s : State, (q.map PowerEntry.slot).Nodup → e ∈ q →
    s.arbiter.budget < e.power → Entered e.slot .refused .powerRange 1 s (refuseQueued q s) := by
  induction q with
  | nil => exact fun _ _ he => absurd he List.not_mem_nil
  | cons x q ih =>
    intro s hnodup he hlow
    rw [List.map_cons, List.nodup_cons] at hnodup
    obtain ⟨hfresh, hrest⟩ := hnodup
    rw [refuseQueued_cons]
    rcases List.mem_cons.1 he with rfl | hmem
    · rw [if_pos hlow]
      exact (entered_refusePower e.slot s).of_untouched (untouched_refuseQueued q _ fun y hy _ hsame =>
        hfresh (hsame ▸ List.mem_map_of_mem hy))
    · have hne : e.slot ≠ x.slot := fun hsame => hfresh (hsame ▸ List.mem_map_of_mem hmem)
      have hbudget := (aside_refuseStep x s).budget
      refine (ih _ hrest hmem (by rw [hbudget]; exact hlow)).after_untouched ?_
      split
      · exact untouched_refusePower hne s
      · exact Untouched.refl _ s

/-- What the refusals leave of the power queue. -/
theorem refuseQueued_queue (q : List PowerEntry) : ∀ s : State, (refuseQueued q s).arbiter.queue =
    s.arbiter.queue.filter fun x => decide (∀ e ∈ q, s.arbiter.budget < e.power → x.slot ≠ e.slot) := by
  induction q with
  | nil => exact fun s => (List.filter_eq_self.2 fun x _ => by simp).symm
  | cons e q ih =>
    intro s
    have hbudget := (aside_refuseStep e s).budget
    rw [refuseQueued_cons, ih, hbudget]
    by_cases hlow : s.arbiter.budget < e.power
    · rw [if_pos hlow, refusePower_queue, List.filter_filter]
      refine List.filter_congr fun x _ => ?_
      simp only [List.mem_cons, forall_eq_or_imp, hlow, forall_const, Bool.decide_and]
      exact Bool.and_comm _ _
    · rw [if_neg hlow]
      refine List.filter_congr fun x _ => ?_
      simp only [List.mem_cons, forall_eq_or_imp, hlow, false_imp_iff, true_and]

/-- With each slot queued once, the entry of a slot stands for it alone. -/
theorem entry_eq_of_slot {q : List PowerEntry} (hnodup : (q.map PowerEntry.slot).Nodup) {e x : PowerEntry} (he : e ∈ q)
    (hx : x ∈ q) (h : e.slot = x.slot) : e = x := by
  induction q with
  | nil => cases he
  | cons y q ih =>
    rw [List.map_cons, List.nodup_cons] at hnodup
    obtain ⟨hfresh, hrest⟩ := hnodup
    rcases List.mem_cons.1 he with rfl | heq
    · rcases List.mem_cons.1 hx with rfl | hxq
      · rfl
      · exact absurd (h ▸ List.mem_map_of_mem hxq) hfresh
    · rcases List.mem_cons.1 hx with rfl | hxq
      · exact absurd (h ▸ List.mem_map_of_mem heq) hfresh
      · exact ih hrest heq hxq

/-- With each slot queued once, the entries above the budget go and the others keep their order. -/
theorem refuseQueued_whole {s : State} (hnodup : (s.arbiter.queue.map PowerEntry.slot).Nodup) :
    (refuseQueued s.arbiter.queue s).arbiter.queue =
      s.arbiter.queue.filter fun x => decide (x.power ≤ s.arbiter.budget) := by
  rw [refuseQueued_queue]
  refine List.filter_congr fun x hx => decide_eq_decide.2 ⟨fun h => ?_, fun hfits e he hlow hsame => ?_⟩
  · exact Nat.le_of_not_lt fun hlow => h x hx hlow rfl
  · rw [entry_eq_of_slot hnodup hx he hsame] at hfits
    exact absurd hlow (Nat.not_lt.2 hfits)

/-! ### The examination (05 R92) -/

theorem untouched_grantPower {i : SlotId} {e : PowerEntry} (h : i ≠ e.slot) (rest : List PowerEntry) (s : State) :
    Untouched i s (grantPower e rest s) := by
  unfold grantPower
  dsimp only
  refine Untouched.trans ?_ (untouched_updSlot _ _ h)
  refine Untouched.trans (b := { s with arbiter := { s.arbiter with
    committed := s.arbiter.committed + e.power, ramping := s.arbiter.ramping + 1, queue := rest } })
    (.of_eq rfl rfl rfl) (untouched_transition _ _ _ h)

/-- A queued slot waits on, untouched, or is granted. -/
theorem examineFrom_entry {e : PowerEntry} (q : List PowerEntry) : ∀ s : State, s.arbiter.queue = q →
    (q.map PowerEntry.slot).Nodup → e ∈ q →
      e ∈ (examineFrom q s).arbiter.queue ∧ Untouched e.slot s (examineFrom q s) ∨
        Entered e.slot .powering .none 1 s (examineFrom q s) ∧ ((examineFrom q s).slot e.slot).grant = true := by
  induction q with
  | nil => exact fun _ _ _ he => absurd he List.not_mem_nil
  | cons x q ih =>
    intro s hq hnodup he
    rw [List.map_cons, List.nodup_cons] at hnodup
    obtain ⟨hfresh, hrest⟩ := hnodup
    unfold examineFrom
    split
    · rcases List.mem_cons.1 he with rfl | hmem
      · have huntouched := untouched_examineFrom e.slot q hfresh (grantPower e q s)
        refine .inr ⟨entered_grantPower.of_untouched huntouched, ?_⟩
        rw [huntouched.slot, grantPower]
        dsimp only
        rw [slot_updSlot_self]
      · have hne : e.slot ≠ x.slot := fun hsame => hfresh (hsame ▸ List.mem_map_of_mem hmem)
        have huntouched := untouched_grantPower hne q s
        refine (ih (grantPower x q s) (by simp) hrest hmem).imp (fun ⟨hin, hu⟩ => ⟨hin, huntouched.trans hu⟩)
          fun ⟨hentered, hgrant⟩ => ⟨hentered.after_untouched huntouched, hgrant⟩
    · exact .inl ⟨by rw [hq]; exact he, Untouched.refl _ s⟩

theorem examine_entry {e : PowerEntry} {s : State} (hnodup : (s.arbiter.queue.map PowerEntry.slot).Nodup)
    (he : e ∈ s.arbiter.queue) : e ∈ (examine s).arbiter.queue ∧ Untouched e.slot s (examine s) ∨
      Entered e.slot .powering .none 1 s (examine s) ∧ ((examine s).slot e.slot).grant = true :=
  examineFrom_entry _ s rfl hnodup he

end Sys2Proof.Machine
end

section
/-!
PROOF. SET_POWER (05 R85 to R88, R92).
-/
namespace Sys2Proof.Machine

/-! ### The settings stored -/

theorem clampMonitor_near (v : PowerFields) (m : Monitor) : clampMonitor v m =
    { m with margin := max 110 (min 200 v.margin.toNat), inrush := max 100 (min 1600 v.inrush.toNat),
             filter := max 1 (min 50 v.filter.toNat), railDip := max 1000 (min 2400 v.railDip.toNat) } := by
  simp only [clampMonitor, clamp_eq _ _ _ (by decide : 110 ≤ 200), clamp_eq _ _ _ (by decide : 100 ≤ 1600),
    clamp_eq _ _ _ (by decide : 1 ≤ 50), clamp_eq _ _ _ (by decide : 1000 ≤ 2400)]

/-- The reply tells whether one of the monitor's four settings was clamped (05 R85). -/
theorem clampStatus_monitor (v : PowerFields) (m : Monitor) : clampStatus (monitorClamped v) =
    if [(clampMonitor v m).margin, (clampMonitor v m).inrush, (clampMonitor v m).filter, (clampMonitor v m).railDip] =
      [v.margin, v.inrush, v.filter, v.railDip].map BitVec.toNat then .ok else .clamped := by
  have hclamped : monitorClamped v = true ↔ ¬ [(clampMonitor v m).margin, (clampMonitor v m).inrush,
      (clampMonitor v m).filter, (clampMonitor v m).railDip] =
        [v.margin, v.inrush, v.filter, v.railDip].map BitVec.toNat := by
    simp only [monitorClamped, clampMonitor, Bool.or_eq_true, decide_eq_true_eq, List.map_cons, List.map_nil,
      List.cons.injEq, and_true, ne_eq, Classical.not_and_iff_not_or_not, or_assoc]
  by_cases hsame : [(clampMonitor v m).margin, (clampMonitor v m).inrush, (clampMonitor v m).filter,
      (clampMonitor v m).railDip] = [v.margin, v.inrush, v.filter, v.railDip].map BitVec.toNat
  · rw [if_pos hsame, clampStatus, if_neg fun h => hclamped.1 h hsame]
  · rw [if_neg hsame, clampStatus, if_pos (hclamped.2 hsame)]

/-! ### The refusals and the examination -/

/-- SET_POWER before its examination: the settings and thresholds written, the queue's entries above a lowered budget
refused. -/
def powerStored (v : PowerFields) (s : State) : State := recomputeThresholds (storePower v s)

def powerRefused (v : PowerFields) (s : State) : State :=
  if v.budget.toNat < s.arbiter.budget then refuseQueued (powerStored v s).arbiter.queue (powerStored v s)
  else powerStored v s

theorem applyPower_eq (v : PowerFields) (s : State) : applyPower v s = examine (powerRefused v s) := rfl

section
variable (v : PowerFields) (s : State)

theorem aside_powerRefused : Aside (powerStored v s) (powerRefused v s) := by
  unfold powerRefused
  split
  · exact aside_refuseQueued _ _
  · exact Aside.refl _

theorem aside_applyPower : Aside (powerStored v s) (applyPower v s) := by
  rw [applyPower_eq]
  exact (aside_powerRefused v s).trans (slotFrame_examine 0 _).aside

/-- What stays queued: everything under a budget that is not lowered, else the entries that fit. -/
theorem powerRefused_queue (hnodup : (s.arbiter.queue.map PowerEntry.slot).Nodup) :
    (powerRefused v s).arbiter.queue = s.arbiter.queue.filter fun e =>
      decide (s.arbiter.budget ≤ v.budget.toNat ∨ e.power ≤ v.budget.toNat) := by
  unfold powerRefused
  by_cases hlow : v.budget.toNat < s.arbiter.budget
  · rw [if_pos hlow, refuseQueued_whole (s := powerStored v s) hnodup]
    refine List.filter_congr fun e _ => decide_eq_decide.2 ⟨fun h => .inr h, fun h => h.resolve_left (Nat.not_le.2 hlow)⟩
  · rw [if_neg hlow]
    exact (List.filter_eq_self.2 fun e _ => decide_eq_true (.inl (Nat.le_of_not_lt hlow))).symm

theorem untouched_powerRefused {i : SlotId}
    (h : ∀ e ∈ s.arbiter.queue, v.budget.toNat < s.arbiter.budget → v.budget.toNat < e.power → i ≠ e.slot) :
    Untouched i (powerStored v s) (powerRefused v s) := by
  unfold powerRefused
  split
  · next hlow => exact untouched_refuseQueued _ _ fun e he hpower => h e he hlow hpower
  · exact Untouched.refl i _

theorem entered_powerRefused {e : PowerEntry} (hnodup : (s.arbiter.queue.map PowerEntry.slot).Nodup)
    (he : e ∈ s.arbiter.queue) (hlow : v.budget.toNat < s.arbiter.budget) (hpower : v.budget.toNat < e.power) :
    Entered e.slot .refused .powerRange 1 (powerStored v s) (powerRefused v s) := by
  unfold powerRefused
  rw [if_pos hlow]
  exact entered_refuseQueued _ _ hnodup he hpower

end

/-- The thresholds are no part of an entry's start. -/
theorem Entered.from_stored {v : PowerFields} {i : SlotId} {st : SlotState} {r : Reason} {k : Nat} {s t : State}
    (h : Entered i st r k (powerStored v s) t) : Entered i st r k s t :=
  h.of_start (by rw [powerStored, slot_storedPower]; rfl) rfl

/-- With nothing queued SET_POWER stores its settings and the thresholds, no more. -/
theorem applyPower_unqueued (v : PowerFields) {s : State} (h : s.arbiter.queue = []) : applyPower v s = powerStored v s := by
  have hqueue : (powerStored v s).arbiter.queue = [] := h
  have hrefused : powerRefused v s = powerStored v s := by
    unfold powerRefused
    rw [hqueue]
    split <;> rfl
  rw [applyPower_eq, hrefused, examine_empty _ hqueue]

/-! ### The command -/

theorem Answers.congr {s t : State} {kind tag : Byte} {status status' : Status} {data data' : List Byte}
    (h : Answers s t kind tag status data) (hstatus : status = status') (hdata : data = data') :
    Answers s t kind tag status' data' := hstatus ▸ hdata ▸ h

theorem answerSetPower_range {v : PowerFields} {s : State} (h : ¬ (10 ≤ v.budget.toNat ∧ v.budget.toNat ≤ 20000 ∧
    1 ≤ v.rampLimit.toNat ∧ v.rampLimit.toNat ≤ 4)) :
    answerSetPower v s = (s, { status := .badArgument, data := powerBytes s }) := by
  rw [answerSetPower, if_pos (by omega)]

theorem answerSetPower_judged {v : PowerFields} {s : State} (h : 10 ≤ v.budget.toNat ∧ v.budget.toNat ≤ 20000 ∧
    1 ≤ v.rampLimit.toNat ∧ v.rampLimit.toNat ≤ 4) : answerSetPower v s =
      if s.arbiter.committed ≤ v.budget.toNat ∧ s.arbiter.ramping ≤ v.rampLimit.toNat then
        (applyPower v s, { status := clampStatus (monitorClamped v), data := powerBytes (applyPower v s) })
      else (s, { status := .wrongState, data := powerBytes s }) := by
  rw [answerSetPower, if_neg (by omega)]
  by_cases hcovered : s.arbiter.committed ≤ v.budget.toNat ∧ s.arbiter.ramping ≤ v.rampLimit.toNat
  · rw [if_pos hcovered, if_neg (by omega)]
  · rw [if_neg hcovered, if_pos (by omega)]

theorem powerBytes_flat (s : State) : powerBytes s = [s.arbiter.budget, s.arbiter.rampLimit, s.monitor.margin,
    s.monitor.inrush, s.monitor.filter, s.monitor.railDip].flatMap u16 := by
  simp only [powerBytes, List.flatMap_cons, List.flatMap_nil, List.append_nil, List.append_assoc]

/-- Settles O28. -/
theorem setPowerJudged : Obligations.SetPowerJudged := by
  intro s tag v htakes held inRange covered near m
  refine ⟨fun hrange => ?range, fun hrange hno => ?wrong, fun hrange hyes hqueues => ?taken⟩
  case range =>
    exact command_replied htakes (by rw [answerSetPower_range hrange, powerBytes_flat])
  case wrong =>
    exact command_replied htakes (by rw [answerSetPower_judged hrange, if_neg hno, powerBytes_flat])
  case taken =>
    obtain ⟨hnodup, -, hwait⟩ := hqueues
    have hact := answerSetPower_judged (s := s) hrange
    rw [if_pos hyes] at hact
    have hm : clampMonitor v s.monitor = m := clampMonitor_near v s.monitor
    have haside := aside_applyPower v s
    have hbudget : (applyPower v s).arbiter.budget = v.budget.toNat := haside.budget
    have hlimit : (applyPower v s).arbiter.rampLimit = v.rampLimit.toNat := haside.rampLimit
    have hmonitor : (applyPower v s).monitor = m := haside.monitor.trans hm
    have hqueue := powerRefused_queue v s hnodup
    obtain ⟨hsuffix, hblocked, -, -⟩ := examine_arbiter (powerRefused v s)
    have hkept : ∀ e ∈ (powerRefused v s).arbiter.queue, e ∈ s.arbiter.queue := fun e he => by
      rw [hqueue] at he
      exact (List.mem_filter.1 he).1
    have hrefusedNodup : ((powerRefused v s).arbiter.queue.map PowerEntry.slot).Nodup := by
      rw [hqueue]
      exact hnodup.sublist (List.filter_sublist.map _)
    refine ⟨_, command_acts htakes hact, hbudget, hlimit, hmonitor, ?_, fun i hi => ?_, fun e he hlow hpower => ⟨?_, ?_⟩,
      fun e he hfits => ?_, ?_, hblocked, fun hempty => ?_, haside.pending, haside.times, haside.policy, haside.keys,
      haside.settings, haside.recorder, haside.sequencer, haside.sets⟩
    · refine (queueReply_answers (quiet_applyPower v s).replies).congr ?_ ?_
      · exact (clampStatus_monitor v s.monitor).trans (by rw [hm])
      · exact (powerBytes_flat (applyPower v s)).trans (by rw [hbudget, hlimit, hmonitor])
    · have huntouched := (untouched_powerRefused v s (i := i) fun e he _ _ h =>
        hi (h ▸ List.mem_map_of_mem he)).trans (untouched_examine (powerRefused v s) fun hin => by
          obtain ⟨e, he, hslot⟩ := List.mem_map.1 hin
          exact hi (hslot ▸ List.mem_map_of_mem (hkept e he)))
      refine huntouched.slot.trans ?_
      rw [powerStored, slot_storedPower, overloadThreshold_eq, show (storePower v s).monitor = m from hm]
      rfl
    · have hleft : e.slot ∉ (powerRefused v s).arbiter.queue.map PowerEntry.slot := by
        rintro hin
        obtain ⟨x, hx, hslot⟩ := List.mem_map.1 hin
        have hex := entry_eq_of_slot hnodup he (hkept x hx) hslot.symm
        rw [hqueue, ← hex] at hx
        have hfits := of_decide_eq_true (List.mem_filter.1 hx).2
        omega
      exact ((entered_powerRefused v s hnodup he hlow hpower).of_untouched
        (untouched_examine _ hleft)).from_stored.withReply _ _ _
    · rintro hin
      obtain ⟨x, hx, hslot⟩ := List.mem_map.1 hin
      have hx' := hsuffix.subset hx
      have hex := entry_eq_of_slot hnodup he (hkept x hx') hslot.symm
      rw [hqueue, ← hex] at hx'
      have hfits := of_decide_eq_true (List.mem_filter.1 hx').2
      omega
    · have huntouched := untouched_powerRefused v s (i := e.slot) fun x hx hlow hpower hslot => by
        rw [entry_eq_of_slot hnodup he hx hslot] at hfits
        omega
      have hin : e ∈ (powerRefused v s).arbiter.queue := by
        rw [hqueue]
        exact List.mem_filter.2 ⟨he, decide_eq_true hfits⟩
      rcases examine_entry hrefusedNodup hin with ⟨hstays, hu⟩ | ⟨hentered, hgrant⟩
      · refine .inl ⟨hstays, ?_⟩
        refine (congrArg Slot.state (huntouched.trans hu).slot).trans ?_
        rw [powerStored, slot_storedPower]
        exact (hwait e.slot).1.1 (List.mem_map_of_mem he)
      · exact .inr ⟨(hentered.after_untouched huntouched).from_stored.withReply _ _ _, hgrant⟩
    · rw [← hqueue]
      exact hsuffix
    · rw [applyPower_unqueued v hempty]
      exact ⟨rfl, rfl, rfl, rfl, rfl, rfl, rfl⟩

end Sys2Proof.Machine
end

section
/-!
PROOF. The walk over the room queue: each slot once, the oldest first, against the plan as it then stands (08 R144).
-/
namespace Sys2Proof.Machine

theorem walkFrom_cons_placed {i : SlotId} {rest : List SlotId} {plan : List PlanWindow} {s : State}
    (h : tryPlace i s = some plan) : walkFrom (i :: rest) s = walkFrom rest (joinPlan i plan (leaveRoom i s)) := by
  conv => lhs; unfold walkFrom
  rw [h]

theorem walkFrom_cons_stays {i : SlotId} {rest : List SlotId} {s : State} (h : tryPlace i s = none) :
    walkFrom (i :: rest) s = walkFrom rest s := by
  conv => lhs; unfold walkFrom
  rw [h]

/-- What a slot's placement and every walk after it keep, the walk keeps. -/
theorem walkFrom_keeps {P : State → Prop}
    (hstep : ∀ i plan s, tryPlace i s = some plan → P s → P (joinPlan i plan (leaveRoom i s))) (q : List SlotId) :
    ∀ s : State, P s → P (walkFrom q s) := by
  induction q with
  | nil => exact fun s h => h
  | cons i q ih =>
    intro s h
    cases hplace : tryPlace i s with
    | some plan => rw [walkFrom_cons_placed hplace]; exact ih _ (hstep i plan s hplace h)
    | none => rw [walkFrom_cons_stays hplace]; exact ih s h

/-! ### A slot's placement -/

theorem joinPlan_planner (i : SlotId) (plan : List PlanWindow) (s : State) :
    (joinPlan i plan (leaveRoom i s)).planner = { s.planner with
      plan := plan, room := s.planner.room.filter fun j => decide (j ≠ i) } := by
  rw [joinPlan, transition_planner]
  rfl

theorem slot_joinPlan_self (i : SlotId) (plan : List PlanWindow) (s : State) :
    (joinPlan i plan (leaveRoom i s)).slot i = (s.slot i).enter .joining .none := by
  rw [joinPlan, slot_transition_self]
  rfl

theorem screening_joinPlan (i j : SlotId) (plan : List PlanWindow) (s : State) :
    ((joinPlan i plan (leaveRoom i s)).slot j).screening = (s.slot j).screening := by
  by_cases hj : j = i
  · subst hj; rw [slot_joinPlan_self]; rfl
  · rw [joinPlan, slot_transition_ne _ _ _ _ hj]; rfl

theorem untouched_joinPlan {i j : SlotId} (h : j ≠ i) (plan : List PlanWindow) (s : State) :
    Untouched j s (joinPlan i plan (leaveRoom i s)) :=
  Untouched.trans (b := { leaveRoom i s with planner := { (leaveRoom i s).planner with plan := plan } })
    (.of_eq rfl rfl rfl) (untouched_transition _ _ _ h)

/-- A slot that a walk has placed: JOINING with its window in the plan and its notice posted (08 R142). -/
structure Placed (i : SlotId) (s : State) : Prop where
  state : (s.slot i).state = .joining
  reason : (s.slot i).reason = .none
  posted : s.posted i
  planned : i ∈ s.planner.plan.map PlanWindow.slot

theorem placed_joinPlan {i : SlotId} {plan : List PlanWindow} {s : State} (h : tryPlace i s = some plan) :
    Placed i (joinPlan i plan (leaveRoom i s)) := by
  refine ⟨by rw [slot_joinPlan_self]; rfl, by rw [slot_joinPlan_self]; rfl, postSlot_posted i _, ?_⟩
  rw [joinPlan_planner]
  obtain ⟨rank, window, -, -, -, hplan, -⟩ := tryPlace_some h
  rw [hplan]
  exact List.mem_map.2 ⟨_, (mem_placeWindow _ _ _).2 (.inl rfl), rfl⟩

theorem Placed.untouched {i : SlotId} {s t : State} (h : Placed i s) (hu : Untouched i s t)
    (hplan : ∀ w ∈ s.planner.plan, w ∈ t.planner.plan) : Placed i t := by
  obtain ⟨w, hw, hslot⟩ := List.mem_map.1 h.planned
  refine ⟨by rw [hu.slot]; exact h.state, by rw [hu.slot]; exact h.reason, ?_, List.mem_map.2 ⟨w, hplan w hw, hslot⟩⟩
  have hposted := hu.notices _ h.posted rfl
  unfold State.posted
  rw [hu.slot]
  exact hposted

theorem plan_joinPlan {i : SlotId} {plan : List PlanWindow} {s : State} (h : tryPlace i s = some plan) :
    ∀ w ∈ s.planner.plan, w ∈ (joinPlan i plan (leaveRoom i s)).planner.plan := by
  intro w hw
  obtain ⟨rank, window, -, -, -, hplan, -⟩ := tryPlace_some h
  rw [joinPlan_planner, hplan]
  exact (mem_placeWindow _ _ _).2 (.inr hw)

/-! ### The walk -/

theorem placed_walkFrom {i : SlotId} (q : List SlotId) (s : State) (h : Placed i s) : Placed i (walkFrom q s) := by
  refine walkFrom_keeps (fun j plan u hplace hu => ?_) q s h
  by_cases hj : i = j
  · subst hj; exact placed_joinPlan hplace
  · exact hu.untouched (untouched_joinPlan hj plan u) (plan_joinPlan hplace)

/-- A slot that has left the room queue in a walk was placed by it. -/
theorem walkFrom_places {i : SlotId} (q : List SlotId) : ∀ s : State, i ∈ s.planner.room →
    i ∉ (walkFrom q s).planner.room → Placed i (walkFrom q s) := by
  induction q with
  | nil => exact fun s hin hout => absurd hin hout
  | cons k q ih =>
    intro s hin hout
    cases hplace : tryPlace k s with
    | none =>
      rw [walkFrom_cons_stays hplace] at hout ⊢
      exact ih s hin hout
    | some plan =>
      rw [walkFrom_cons_placed hplace] at hout ⊢
      by_cases hk : i = k
      · subst hk; exact placed_walkFrom q _ (placed_joinPlan hplace)
      · refine ih _ ?_ hout
        rw [joinPlan_planner]
        exact List.mem_filter.2 ⟨hin, decide_eq_true hk⟩

theorem walkFrom_plan (q : List SlotId) (s : State) : ∀ w ∈ s.planner.plan, w ∈ (walkFrom q s).planner.plan :=
  walkFrom_keeps (P := fun u => ∀ w ∈ s.planner.plan, w ∈ u.planner.plan)
    (fun _ _ _ hplace h w hw => plan_joinPlan hplace w (h w hw)) q s fun _ hw => hw

theorem walkFrom_room (q : List SlotId) (s : State) : (walkFrom q s).planner.room.Sublist s.planner.room :=
  walkFrom_keeps (P := fun u => u.planner.room.Sublist s.planner.room) (fun _ _ _ _ h => by
    rw [joinPlan_planner]
    exact List.filter_sublist.trans h) q s (List.Sublist.refl _)

/-- A walk posts notices of slots alone: another source's stays in its place. -/
theorem walkFrom_notices {n : Notice} (hsource : ∀ i, n.source ≠ .slot i) (q : List SlotId) (s : State)
    (h : n ∈ s.link.notices) : n ∈ (walkFrom q s).link.notices :=
  walkFrom_keeps (P := fun u => n ∈ u.link.notices) (fun i plan u _ hu => by
    simp only [joinPlan, transition, postSlot, postNotice_notices, reportGate_link, updSlot_link]
    exact mem_placeNotice_of_ne hu (hsource i)) q s h

/-- A walk reaches slots, planner, gate reports and notices, nothing else. -/
theorem walkRoom_rest (s : State) : { walkRoom s with
    slots := s.slots, planner := s.planner, recorder := s.recorder, link := s.link } = s := by
  simp only [walkRoom_pending, walkRoom_inReset, walkRoom_times, walkRoom_engine, walkRoom_policy, walkRoom_keys,
    walkRoom_arbiter, walkRoom_monitor, walkRoom_sets, walkRoom_sequencer]

/-- The walk as a fold over the queue: with each slot queued once, what it makes of plan and queue is what its step makes
of them, slot by slot. -/
theorem walkFrom_fold {step : List PlanWindow × List SlotId → SlotId → List PlanWindow × List SlotId} {s : State}
    (hplaced : ∀ u i plan left, u.planner.settings = s.planner.settings →
      (∀ j, (u.slot j).screening = (s.slot j).screening) → tryPlace i u = some plan →
        step (u.planner.plan, left) i = (plan, left))
    (hstays : ∀ u i left, u.planner.settings = s.planner.settings →
      (∀ j, (u.slot j).screening = (s.slot j).screening) → tryPlace i u = none →
        step (u.planner.plan, left) i = (u.planner.plan, left ++ [i])) (q : List SlotId) :
    ∀ (u : State) (left : List SlotId), u.planner.settings = s.planner.settings →
      (∀ j, (u.slot j).screening = (s.slot j).screening) → u.planner.room = left ++ q → (left ++ q).Nodup →
        ((walkFrom q u).planner.plan, (walkFrom q u).planner.room) = q.foldl step (u.planner.plan, left) := by
  induction q with
  | nil => exact fun u left _ _ hroom _ => by rw [walkFrom, hroom, List.append_nil]; rfl
  | cons i q ih =>
    intro u left hsettings hscreening hroom hnodup
    rw [List.foldl_cons]
    cases hplace : tryPlace i u with
    | some plan =>
      have hleft : (left ++ i :: q).filter (fun j => decide (j ≠ i)) = left ++ q := by
        obtain ⟨-, -, hdisjoint⟩ := List.nodup_append.1 hnodup
        have hfresh := (List.nodup_cons.1 (List.nodup_append.1 hnodup).2.1).1
        have hkeep : ∀ l : List SlotId, i ∉ l → l.filter (fun j => decide (j ≠ i)) = l := fun l hl =>
          List.filter_eq_self.2 fun j hj => decide_eq_true fun h => hl (h ▸ hj)
        rw [List.filter_append, List.filter_cons_of_neg (by simp), hkeep q hfresh,
          hkeep left fun hin => hdisjoint i hin i List.mem_cons_self rfl]
      rw [walkFrom_cons_placed hplace, hplaced u i plan left hsettings hscreening hplace]
      have hnext := ih (joinPlan i plan (leaveRoom i u)) left (by rw [joinPlan_planner]; exact hsettings)
        (fun j => (screening_joinPlan i j plan u).trans (hscreening j)) (by rw [joinPlan_planner, hroom]; exact hleft)
        (hleft ▸ hnodup.filter _)
      rw [hnext, joinPlan_planner]
    | none =>
      rw [walkFrom_cons_stays hplace, hstays u i left hsettings hscreening hplace]
      exact ih u (left ++ [i]) hsettings hscreening (by rw [hroom, List.append_assoc]; rfl)
        (by rw [List.append_assoc]; exact hnodup)

end Sys2Proof.Machine
end

section
/-!
PROOF. SET_CYCLE (07 R133, 08 R139 to R141, R144, R149).
-/
namespace Sys2Proof.Machine

/-! ### The settings judged -/

theorem cycleModeOf_unknown {b : Byte} (h : 2 < b.toNat) : cycleModeOf b = none := by
  have hne : ∀ c : Byte, c.toNat ≤ 2 → b ≠ c := fun c hc => byte_ne (by omega)
  rw [cycleModeOf, if_neg (hne 0 (by decide)), if_neg (hne 1 (by decide)), if_neg (hne 2 (by decide))]

theorem cycleModeOf_code {b : Byte} {m : CycleMode} (h : m.code = b.toNat) : cycleModeOf b = some m := by
  have hb : b = BitVec.ofNat 8 m.code := byte_eq (by rw [← h]; cases m <;> rfl)
  rw [hb]
  cases m <;> rfl

theorem cycleModeOf_known {b : Byte} (h : b.toNat ≤ 2) : ∃ m : CycleMode, m.code = b.toNat := by
  have hcases : b.toNat = 0 ∨ b.toNat = 1 ∨ b.toNat = 2 := by omega
  rcases hcases with h | h | h <;> rw [h]
  · exact ⟨.off, rfl⟩
  · exact ⟨.master, rfl⟩
  · exact ⟨.follower, rfl⟩

/-- The limit of a plan outside OFF mode (08 R141). -/
def fitLimit (v : CycleSettings) : Nat :=
  if v.mode = .follower then v.length - v.tolerance - 250 else v.length - 250

theorem planFits_limit (v : CycleSettings) (plan : List PlanWindow) : planFits v plan = true ↔
    v.mode = .off ∨ plan = [] ∨ 50 + (plan.map fun w => w.window.length).sum ≤ fitLimit v := by
  rw [planFits_iff, planLimit, fitLimit]
  cases hmode : v.mode <;>
    simp [planTicks, Config.leadGap, Config.planReserve]

theorem usableSpan_eq (v : CycleSettings) : usableSpan v =
    if v.mode = .follower then v.length - v.tolerance - 300 else v.length - 300 := by
  unfold usableSpan
  cases v.mode <;> rfl

theorem cycleWalks_iff (old new : CycleSettings) : cycleWalks old new = true ↔
    old.mode = .off ∧ new.mode ≠ .off ∨ usableSpan old < usableSpan new := by
  simp [cycleWalks]

theorem anyPlanned_iff (s : State) : s.anyPlanned = true ↔
    ∃ i, (s.slot i).state = .joining ∨ (s.slot i).state = .running := by
  unfold State.anyPlanned
  rw [List.any_eq_true]
  constructor
  · rintro ⟨c, hc, hst⟩
    obtain ⟨k, hk, rfl⟩ := List.getElem_of_mem hc
    refine ⟨⟨k, by simpa using hk⟩, ?_⟩
    simpa [State.slot] using hst
  · rintro ⟨i, hst⟩
    refine ⟨s.slot i, ?_, by simpa using hst⟩
    simp [State.slot]

/-! ### A taken SET_CYCLE -/

/-- SET_CYCLE before its walk: the planning settings, and the mode change with its notice. -/
def cycleMoved (v : CycleSettings) (s : State) : State :=
  if v.mode = s.planner.settings.mode then { s with planner := { s.planner with settings := v } }
  else postCycle .stateChange (changeMode v { s with planner := { s.planner with settings := v } })

theorem applyCycle_eq (v : CycleSettings) (s : State) : applyCycle v s =
    if cycleWalks s.planner.settings v then walkRoom (cycleMoved v s) else cycleMoved v s := rfl

section
variable (v : CycleSettings) (s : State)

theorem cycleMoved_slots : (cycleMoved v s).slots = s.slots := by
  unfold cycleMoved
  split <;> rfl

theorem cycleMoved_planner : (cycleMoved v s).planner = { s.planner with settings := v } := by
  unfold cycleMoved
  split <;> rfl

theorem cycleMoved_recorder : (cycleMoved v s).recorder = s.recorder := by
  unfold cycleMoved
  split <;> rfl

theorem cycleMoved_link :
    { (cycleMoved v s).link with replies := s.link.replies, notices := s.link.notices } = s.link := by
  unfold cycleMoved
  split <;> rfl

theorem cycleMoved_rest : { cycleMoved v s with
    slots := s.slots, planner := s.planner, sequencer := s.sequencer, link := s.link, recorder := s.recorder } = s := by
  unfold cycleMoved
  split <;> rfl

theorem cycleMoved_same (h : v.mode = s.planner.settings.mode) : (cycleMoved v s).sequencer = s.sequencer := by
  rw [cycleMoved, if_pos h]

theorem cycleMoved_changes (h : v.mode ≠ s.planner.settings.mode) : (cycleMoved v s).postedCycle .stateChange ∧
    (cycleMoved v s).sequencer = { s.sequencer with
      state := v.mode.entryState, length := v.length, tolerance := v.tolerance, markLow := decide (v.mode = .master),
      longPulse := false, next := none, run := none } := by
  rw [cycleMoved, if_neg h]
  exact ⟨mem_placeNotice_self _ _, rfl⟩

theorem applyCycle_sequencer : (applyCycle v s).sequencer = (cycleMoved v s).sequencer := by
  rw [applyCycle_eq]
  split
  · exact walkRoom_sequencer _
  · rfl

theorem applyCycle_settings : (applyCycle v s).planner.settings = v := by
  rw [applyCycle_eq]
  split
  · rw [walkRoom_settings, cycleMoved_planner]
  · rw [cycleMoved_planner]

theorem applyCycle_posted (h : (cycleMoved v s).postedCycle .stateChange) : (applyCycle v s).postedCycle .stateChange := by
  unfold State.postedCycle at h ⊢
  rw [applyCycle_sequencer, applyCycle_eq]
  split
  · exact walkFrom_notices (fun _ hsource => NoticeSource.noConfusion hsource) _ _ h
  · exact h

theorem applyCycle_slot {i : SlotId} (h : i ∉ s.planner.room) : (applyCycle v s).slot i = s.slot i := by
  have hslot := slot_congr i (cycleMoved_slots v s)
  rw [applyCycle_eq]
  split
  · rw [slot_walkRoom _ (by rw [cycleMoved_planner]; exact h), hslot]
  · exact hslot

theorem applyCycle_rest : { applyCycle v s with
    slots := s.slots, planner := s.planner, sequencer := s.sequencer, link := s.link, recorder := s.recorder } = s := by
  rw [applyCycle_eq]
  split
  · have hwalk := congrArg (fun x : State => { x with slots := s.slots, planner := s.planner, sequencer := s.sequencer,
                                                      link := s.link, recorder := s.recorder })
      (walkRoom_rest (cycleMoved v s))
    exact hwalk.trans (cycleMoved_rest v s)
  · exact cycleMoved_rest v s

theorem applyCycle_recorder : { (applyCycle v s).recorder with gateReports := s.recorder.gateReports } = s.recorder := by
  rw [applyCycle_eq]
  split
  · have hwalk := (slotFrame_walkRoom 0 (cycleMoved v s)).recorder
    rwa [cycleMoved_recorder] at hwalk
  · rw [cycleMoved_recorder]

theorem applyCycle_link :
    { (applyCycle v s).link with replies := s.link.replies, notices := s.link.notices } = s.link := by
  rw [applyCycle_eq]
  split
  · exact Link.queues_trans (cycleMoved_link v s) (slotFrame_walkRoom 0 (cycleMoved v s)).link
  · exact cycleMoved_link v s

end

/-! ### The command -/

/-- The order of the judgements (08 R139). -/
theorem judgeCycle_cases (v : CycleSettings) (s : State) :
    judgeCycle v s = if 2500 ≤ v.length ∧ v.length ≤ 500000 ∧ 10 ≤ v.tolerance ∧ v.tolerance ≤ 500 then
        if v.mode ≠ s.planner.settings.mode ∧ s.planner.settings.mode ≠ .off ∧ s.anyPlanned = true then (s, .wrongState)
        else if planFits v s.planner.plan then (applyCycle v s, .ok) else (s, .wontFit)
      else (s, .badArgument) := by
  unfold judgeCycle
  by_cases hrange : 2500 ≤ v.length ∧ v.length ≤ 500000 ∧ 10 ≤ v.tolerance ∧ v.tolerance ≤ 500
  · rw [if_pos hrange, if_neg (by omega)]
  · rw [if_neg hrange, if_pos (by omega)]

theorem answerSetCycle_known {mode : Byte} {m : CycleMode} (h : m.code = mode.toNat) (length : Long) (tolerance : Word)
    {s t : State} {status : Status}
    (hjudged : judgeCycle { mode := m, length := length.toNat, tolerance := tolerance.toNat } s = (t, status)) :
    answerSetCycle mode length tolerance s = (t, { status := status, data := cycleBytes t }) := by
  rw [answerSetCycle, cycleModeOf_code h]
  dsimp only
  rw [hjudged]

/-- What the walk of a taken SET_CYCLE leaves. -/
theorem applyCycle_walks {v : CycleSettings} {s : State} (h : cycleWalks s.planner.settings v = true) :
    applyCycle v s = walkRoom (cycleMoved v s) := by
  rw [applyCycle_eq, if_pos h]

/-- A window placed by a walk under new settings (08 R142, R144). -/
theorem tryPlace_judged {i : SlotId} {u : State} {rank : Nat} {window : Descriptor}
    (hrank : (u.slot i).screening.rank = some rank) (hwindow : (u.slot i).screening.window = some window) :
    let plan := placeWindow { slot := i, rank := rank, window := window } u.planner.plan
    tryPlace i u = if u.planner.settings.mode ≠ .off ∧
        50 + (plan.map fun w => w.window.length).sum ≤ fitLimit u.planner.settings then some plan else none := by
  intro plan
  by_cases hmode : u.planner.settings.mode = .off
  · rw [tryPlace_off hmode, if_neg fun h => h.1 hmode]
  · refine (tryPlace_on hmode hrank hwindow).trans ?_
    have hfits := planFits_limit u.planner.settings plan
    have hne : plan ≠ [] := placeWindow_ne_nil _ _
    by_cases hle : 50 + (plan.map fun w => w.window.length).sum ≤ fitLimit u.planner.settings
    · exact (if_pos (hfits.2 (.inr (.inr hle)))).trans (if_pos ⟨hmode, hle⟩).symm
    · refine (if_neg fun h => ?_).trans (if_neg fun h => hle h.2).symm
      rcases hfits.1 h with hoff | hnil | hin
      · exact hmode hoff
      · exact hne hnil
      · exact hle hin

/-- Settles O29. -/
theorem setCycleJudged : Obligations.SetCycleJudged := by
  intro s tag mode length tolerance htakes report inRange command
  have hexec : ∀ {t status}, answerSetCycle mode length tolerance s = (t, { status := status, data := cycleBytes t }) →
      exec command s = .next (t.replied 0x05 tag status (cycleBytes t)) := fun h => command_replied htakes h
  refine ⟨fun hrange => hexec ?_, ?_⟩
  · by_cases hmode : mode.toNat ≤ 2
    · obtain ⟨m, hm⟩ := cycleModeOf_known hmode
      refine answerSetCycle_known hm length tolerance ?_
      rw [judgeCycle_cases, if_neg fun h => hrange ⟨hmode, h⟩]
    · rw [answerSetCycle, cycleModeOf_unknown (Nat.lt_of_not_le hmode)]
  intro m hm hrange busy limit fits span v walks tried
  have hjudge : judgeCycle v s = if busy then (s, .wrongState) else
      if planFits v s.planner.plan then (applyCycle v s, .ok) else (s, .wontFit) := by
    rw [judgeCycle_cases, if_pos hrange.2]
    simp only [anyPlanned_iff]
    rfl
  have hfits : planFits v s.planner.plan = true ↔ fits := planFits_limit v s.planner.plan
  have hwalks : cycleWalks s.planner.settings v = true ↔ walks := by
    rw [cycleWalks_iff, usableSpan_eq, usableSpan_eq]
  refine ⟨fun hbusy => ?_, fun hfree hno => ?_, fun hfree hyes => ?_⟩
  · exact hexec (answerSetCycle_known hm length tolerance (hjudge.trans (if_pos hbusy)))
  · exact hexec (answerSetCycle_known hm length tolerance (hjudge.trans ((if_neg hfree).trans
      (if_neg fun h => hno (hfits.1 h)))))
  · have hact := answerSetCycle_known hm length tolerance
      (hjudge.trans ((if_neg hfree).trans (if_pos (hfits.2 hyes))))
    have hmoved : ∀ j, (cycleMoved v s).slot j = s.slot j := fun j => slot_congr j (cycleMoved_slots v s)
    have hplanner := cycleMoved_planner v s
    refine ⟨_, command_acts htakes hact, applyCycle_settings v s, queueReply_answers (quiet_applyCycle v s).replies,
      fun hsame => ?same, fun hnew => ?changes, fun hno => ?still, fun hwalk => ?walked, fun hwalk hnodup => ?folded,
      fun i hi => applyCycle_slot v s hi, applyCycle_rest v s, applyCycle_recorder v s, applyCycle_link v s⟩
    case same => exact (applyCycle_sequencer v s).trans (cycleMoved_same v s hsame)
    case changes =>
      obtain ⟨hposted, hsequencer⟩ := cycleMoved_changes v s hnew
      refine ⟨applyCycle_posted v s hposted, ((applyCycle_sequencer v s).trans hsequencer).trans ?_⟩
      cases m <;> rfl
    case still =>
      have hsame : applyCycle v s = cycleMoved v s := by rw [applyCycle_eq, if_neg fun h => hno (hwalks.1 h)]
      exact ⟨(congrArg State.slots hsame).trans (cycleMoved_slots v s), (congrArg State.planner hsame).trans hplanner⟩
    case walked =>
      rw [applyCycle_walks (hwalks.2 hwalk)]
      have hroom : (cycleMoved v s).planner.room = s.planner.room := by rw [hplanner]
      have hplan : (cycleMoved v s).planner.plan = s.planner.plan := by rw [hplanner]
      refine ⟨fun i hi => ?_, ?_, fun w hw => walkFrom_plan _ (cycleMoved v s) w (by rw [hplan]; exact hw),
        fun i hin hout => ?_⟩
      · exact (tryPlace_congr (s := walkRoom (cycleMoved v s)) rfl rfl rfl).trans (walkRoom_blocked _ i hi)
      · rw [← hroom]
        exact walkFrom_room _ (cycleMoved v s)
      · have hplaced := walkFrom_places (i := i) _ (cycleMoved v s) (by rw [hroom]; exact hin) hout
        exact ⟨hplaced.state, hplaced.reason, hplaced.posted, hplaced.planned⟩
    case folded =>
      have hscreened : ∀ {u : State} {i}, (∀ j, (u.slot j).screening = ((cycleMoved v s).slot j).screening) →
          (u.slot i).screening = (s.slot i).screening := fun {u i} h => (h i).trans (congrArg Slot.screening (hmoved i))
      have hfold := walkFrom_fold (step := tried) (s := cycleMoved v s) ?_ ?_ s.planner.room (cycleMoved v s) [] rfl
        (fun _ => rfl) (by rw [hplanner]; rfl) hnodup
      · rw [applyCycle_walks (hwalks.2 hwalk), walkRoom, hplanner]
        rw [hplanner] at hfold
        exact hfold
      · intro u i plan left hsettings hscreening hplace
        rw [hplanner] at hsettings
        obtain ⟨rank, window, hmode, hrank, hwindow, hplan, hplaceFits⟩ := tryPlace_some hplace
        have hlimit := ((planFits_limit _ _).1 hplaceFits).resolve_left hmode
        rw [hplan] at hlimit
        replace hlimit := hlimit.resolve_left (placeWindow_ne_nil _ _)
        rw [hsettings] at hmode hlimit
        rw [hscreened hscreening] at hrank hwindow
        simp only [tried, hrank, hwindow]
        rw [hplan]
        exact if_pos ⟨hmode, hlimit⟩
      · intro u i left hsettings hscreening hplace
        rw [hplanner] at hsettings
        cases hrank : (s.slot i).screening.rank with
        | none => simp only [tried, hrank]
        | some rank =>
          cases hwindow : (s.slot i).screening.window with
          | none => simp only [tried, hrank, hwindow]
          | some window =>
            have hjudged := tryPlace_judged (u := u) (i := i) ((congrArg Screening.rank (hscreened hscreening)).trans hrank)
              ((congrArg Screening.window (hscreened hscreening)).trans hwindow)
            rw [hplace, hsettings] at hjudged
            simp only [tried, hrank, hwindow]
            refine if_neg fun h => ?_
            exact Option.some_ne_none _ (hjudged.trans (if_pos h)).symm

end Sys2Proof.Machine
end

section
/-!
PROOF. The warm restart of one slot, and the induction over the slots in ascending order (01 R30, 02 R49).
-/
namespace Sys2Proof.Machine

/-- A slot of 01 R30 is powered down and identified anew. -/
def restartCard (i : SlotId) (s : State) : State := toIdentifying i .warmRestart (powerDown i s)

theorem restartSlot_eq (s : State) (i : SlotId) :
    restartSlot s i = if (s.slot i).state.restarted then restartCard i s else s := rfl

theorem restarted_iff (st : SlotState) : st.restarted = true ↔ st ∈ [.identifying, .consentWait, .unlocking, .powerWait,
    .powering, .resetHold, .readyWait, .configuring, .roomWait, .joining] := by
  cases st <;> simp [SlotState.restarted]

/-- The slots among `done` that a restart from s carries. -/
def State.gone (s : State) (done : List SlotId) (j : SlotId) : Bool :=
  decide (j ∈ done) && (s.slot j).state.restarted

theorem slot_restartCard_ne {i j : SlotId} (h : j ≠ i) (s : State) : (restartCard i s).slot j = s.slot j := by
  simp [restartCard, toIdentifying, h]

/-- What each slot's restart establishes, given that it finds its slot as the restart found it, holds after all of them. -/
theorem restartSlots_induction {P : List SlotId → State → Prop} {s : State} (start : P [] s)
    (carry : ∀ done i u, i ∉ done → u.slot i = s.slot i → (s.slot i).state.restarted = true → P done u →
      P (done ++ [i]) (restartCard i u))
    (stand : ∀ done i u, i ∉ done → (s.slot i).state.restarted = false → P done u → P (done ++ [i]) u) {l : List SlotId}
    (hl : l.Nodup) : P l (l.foldl restartSlot s) := by
  have hgo : ∀ q done u, (done ++ q).Nodup → (∀ j ∉ done, u.slot j = s.slot j) → P done u →
      P (done ++ q) (q.foldl restartSlot u) := by
    intro q
    induction q with
    | nil => intro done u _ _ h; rwa [List.append_nil]
    | cons i q ih =>
      intro done u hnodup hslots h
      have hfresh : i ∉ done := fun hin => (List.nodup_append.1 hnodup).2.2 i hin i List.mem_cons_self rfl
      have hassoc : done ++ i :: q = (done ++ [i]) ++ q := by rw [List.append_assoc]; rfl
      rw [hassoc] at hnodup ⊢
      rw [List.foldl_cons, restartSlot_eq, hslots i hfresh]
      have hlater : ∀ {j}, j ∉ done ++ [i] → j ∉ done ∧ j ≠ i := fun h => by
        simpa only [List.mem_append, List.mem_singleton, not_or] using h
      split
      · next hyes =>
        refine ih _ _ hnodup (fun j hj => ?_) (carry done i u hfresh (hslots i hfresh) hyes h)
        rw [slot_restartCard_ne (hlater hj).2, hslots j (hlater hj).1]
      · next hno =>
        exact ih _ _ hnodup (fun j hj => hslots j (hlater hj).1) (stand done i u hfresh (Bool.not_eq_true _ ▸ hno) h)
  exact hgo l [] s hl (fun _ _ => rfl) start

/-! ### One slot's restart, block by block -/

theorem slotFrame_restartCard (i : SlotId) (s : State) : SlotFrame i s (restartCard i s) :=
  (slotFrame_powerDown i s).trans (slotFrame_toIdentifying i _ _)

theorem restartCard_planner (i : SlotId) (s : State) : (restartCard i s).planner = { s.planner with
    plan := s.planner.plan.filter fun w => decide (w.slot ≠ i)
    room := s.planner.room.filter fun j => decide (j ≠ i) } := by
  rw [restartCard, toIdentifying_planner, powerDown_planner]

theorem restartCard_sequencer (i : SlotId) (s : State) : (restartCard i s).sequencer = { s.sequencer with
    active := s.sequencer.active.map fun w => if w.slot = i then { w with muted := true } else w
    run := s.sequencer.run.filter fun run => decide (run.slot ≠ i) } := by
  rw [restartCard, toIdentifying_sequencer, powerDown_sequencer]

theorem restartCard_arbiter (i : SlotId) (s : State) : (restartCard i s).arbiter = (dropBlocks i s).arbiter := by
  rw [restartCard, toIdentifying_arbiter, powerDown_arbiter]

theorem restartCard_sets (i : SlotId) (s : State) : (restartCard i s).sets = unpinSets (s.slot i).pin s.sets := by
  rw [restartCard, toIdentifying_sets, powerDown_sets]
  rfl

theorem state_powerDown (i : SlotId) (s : State) : ((powerDown i s).slot i).state = (s.slot i).state := by
  obtain ⟨q, hq⟩ := powerDown_slot i s
  rw [hq]

theorem restartCard_recorder (i : SlotId) (s : State) : (restartCard i s).recorder = { s.recorder with
    gateReports := s.recorder.gateReports ++
      if (s.slot i).state.inBringUp then [{ slot := i, entering := false }] else [] } := by
  have hrecorder : (restartCard i s).recorder = (transition i .identifying .warmRestart (powerDown i s)).recorder := by
    rw [restartCard, toIdentifying, issueJob_recorder, withdrawJob_recorder]
  have hrest := transition_recorder i .identifying .warmRestart (powerDown i s)
  have hreports := transition_gateReports i .identifying .warmRestart (powerDown i s)
  rw [state_powerDown, powerDown_recorder] at hreports
  rw [powerDown_recorder] at hrest
  have hsame : (transition i .identifying .warmRestart (powerDown i s)).recorder.gateReports = s.recorder.gateReports ++
      if (s.slot i).state.inBringUp then [{ slot := i, entering := false }] else [] := by
    rw [hreports]
    cases (s.slot i).state.inBringUp <;> rfl
  have hall := congrArg (fun r : Recorder => { r with
    gateReports := (transition i .identifying .warmRestart (powerDown i s)).recorder.gateReports }) hrest
  rw [hrecorder, ← hsame]
  exact hall

theorem restartCard_link (i : SlotId) (s : State) : (restartCard i s).link = { s.link with
    notices := placeNotice (.slot i .identifying .warmRestart (saturate 255 (s.slot i).transitions) (s.slot i).faultCount)
      s.link.notices } := by
  obtain ⟨q, hq⟩ := powerDown_slot i s
  have hlink : (restartCard i s).link = (transition i .identifying .warmRestart (powerDown i s)).link := by
    rw [restartCard, toIdentifying, issueJob_link, withdrawJob_link]
  rw [hlink]
  simp only [transition, postSlot, postNotice, reportGate_link, updSlot_link, powerDown_link, slot_reportGate,
    slot_updSlot_self, hq]
  rfl

theorem jobs_restartCard {i j : SlotId} (h : j ≠ i) {t : Transaction} {s : State}
    (hj : { slot := j, transaction := t } ∈ s.engine.jobs) :
    { slot := j, transaction := t } ∈ (restartCard i s).engine.jobs := by
  have hkept := (slotFrame_restartCard i s).jobs
  have hin : { slot := j, transaction := t } ∈ (restartCard i s).engine.jobs.filter fun k => decide (k.slot ≠ i) := by
    rw [hkept]
    exact List.mem_filter.2 ⟨hj, decide_eq_true h⟩
  exact (List.mem_filter.1 hin).1

/-- A slot as its restart leaves it (01 R30, 06 R121). -/
structure CarriedOver (i : SlotId) (s t : State) : Prop where
  state : (t.slot i).state = .identifying
  reason : (t.slot i).reason = .warmRestart
  lines : (t.slot i).linesFollow
  timers : (t.slot i).timersFollow
  screening : (t.slot i).screening = Screening.absent
  transitions : (t.slot i).transitions = saturate 255 (s.slot i).transitions
  traceRef : (t.slot i).traceRef = (s.slot i).traceRef
  dropped : (t.slot i).grant = false ∧ (t.slot i).pin = none ∧ (t.slot i).threshold = none
  kept : (t.slot i).allowance = (s.slot i).allowance ∧ (t.slot i).faultCount = (s.slot i).faultCount
  contacts : (t.slot i).early = (s.slot i).early ∧ (t.slot i).late = (s.slot i).late
  issued : { slot := i, transaction := .identRead 0 8 } ∈ t.engine.jobs
  transfer : ∀ n, (s.slot i).pin = some n → (t.slot i).wordsWritten = (s.slot i).transferCount ∧
    (t.slot i).residual = s.sets[n].length - (s.slot i).transferCount

theorem carriedOver_restartCard (i : SlotId) (s : State) : CarriedOver i s (restartCard i s) := by
  obtain ⟨q, hdown⟩ := powerDown_slot i s
  obtain ⟨q', hslot⟩ := slot_toIdentifying i .warmRestart (powerDown i s)
  have hidentifies := identifies_toIdentifying i .warmRestart (powerDown i s)
  refine ⟨hidentifies.entered.state, hidentifies.entered.reason, hidentifies.entered.lines, hidentifies.entered.timers,
    hidentifies.screening, ?_, ?_, ⟨?_, ?_, ?_⟩, ⟨?_, ?_⟩, ⟨?_, ?_⟩, hidentifies.issued, fun n hn => ?_⟩
  case refine_10 =>
    have hcut := (poweredDown_powerDown i s).cut n hn
    rw [restartCard, hslot]
    exact hcut
  all_goals
    rw [restartCard, hslot, hdown]
    rfl

theorem CarriedOver.later {i j : SlotId} {s t : State} (h : CarriedOver i s t) (hj : i ≠ j) :
    CarriedOver i s (restartCard j t) := by
  have hslot := slot_restartCard_ne hj t
  refine ⟨?_, ?_, ?_, ?_, ?_, ?_, ?_, ?_, ?_, ?_, jobs_restartCard hj h.issued, ?_⟩ <;> rw [hslot]
  · exact h.state
  · exact h.reason
  · exact h.lines
  · exact h.timers
  · exact h.screening
  · exact h.transitions
  · exact h.traceRef
  · exact h.dropped
  · exact h.kept
  · exact h.contacts
  · exact h.transfer

/-! ### The job in progress -/

theorem issueJob_current {i : SlotId} {t : Transaction} {s : State} {cur : CurrentJob}
    (h : s.engine.current = some cur) : (issueJob i t s).engine.current = some cur := by
  unfold issueJob
  split
  · exact h
  · simp [startJob, h]

theorem withdrawJob_current_ne {i : SlotId} {s : State} {cur : CurrentJob} (h : s.engine.current = some cur)
    (hi : cur.job.slot ≠ i) : (withdrawJob i s).engine.current = some cur := by
  simp [withdrawJob, abortJob, h, hi]

theorem restartCard_current_ne {i : SlotId} {s : State} {cur : CurrentJob} (h : s.engine.current = some cur)
    (hi : cur.job.slot ≠ i) : (restartCard i s).engine.current = some cur := by
  have hdown : (powerDown i s).engine.current = some cur := by
    rw [powerDown_engine]
    refine withdrawJob_current_ne ?_ hi
    rw [leavePowerQueue_engine, releaseGrant_engine, leaveRoom_engine, withdrawWindow_engine, muteWindow_engine]
    exact h
  refine issueJob_current (withdrawJob_current_ne ?_ hi)
  rw [transition_engine]
  exact hdown

theorem restartCard_current_self {i : SlotId} {s : State} {cur : CurrentJob} (h : s.engine.current = some cur)
    (hi : cur.job.slot = i) (hopen : cur.held = false) :
    (restartCard i s).engine.current = some (cur.requestAbort s.sets) := by
  have hdown := (poweredDown_powerDown i s).reading cur h hi hopen
  have hwithdrawn : (withdrawJob i (transition i .identifying .warmRestart (powerDown i s))).engine.current =
      some (cur.requestAbort s.sets) := by
    rw [withdrawJob_reading (cur := cur.requestAbort s.sets) (by rw [transition_engine]; exact hdown)
      (by rw [requestAbort_job]; exact hi) (by rw [requestAbort_held]; exact hopen), requestAbort_again]
  exact issueJob_current hwithdrawn

/-- The bytes an abort request keeps are the set's words, whatever its pins (02 R37). -/
theorem requestAbort_congr {sets later : Vector ParamSet 8} (h : ∀ n : Fin 8, later[n].words = sets[n].words)
    (cur : CurrentJob) : cur.requestAbort later = cur.requestAbort sets := by
  have hbytes : ∀ t : Transaction, t.sentBytes later = t.sentBytes sets := by
    intro t
    cases t with
    | blockWrite set offset count => simp only [Transaction.sentBytes, h]
    | _ => rfl
  rw [CurrentJob.requestAbort, CurrentJob.requestAbort, hbytes]

end Sys2Proof.Machine
end

section
/-!
PROOF. The warm restart of all slots, block by block (01 R30, 02 R44, R49, 05 R106, 06 R121, 08 R161, 09 R183).
-/
namespace Sys2Proof.Machine

/-! ### The slots that are gone -/

theorem gone_nil (s : State) (j : SlotId) : s.gone [] j = false := by simp [State.gone]

/-- One more restarted slot is gone. -/
theorem gone_carried {s : State} {done : List SlotId} {i : SlotId} (h : (s.slot i).state.restarted = true) (j : SlotId) :
    s.gone (done ++ [i]) j = (decide (j = i) || s.gone done j) := by
  by_cases hj : j = i
  · subst hj; simp [State.gone, h]
  · simp [State.gone, hj]

/-- One that stands is not. -/
theorem gone_stands {s : State} {done : List SlotId} {i : SlotId} (h : (s.slot i).state.restarted = false) (j : SlotId) :
    s.gone (done ++ [i]) j = s.gone done j := by
  by_cases hj : j = i
  · subst hj; simp [State.gone, h]
  · simp [State.gone, hj]

/-- Before the first slot is restarted, nothing that stands for a slot is left out. -/
theorem filter_stands {α : Type} (s : State) (slot : α → SlotId) (l : List α) :
    (l.filter fun x => !s.gone [] (slot x)) = l :=
  List.filter_eq_self.2 fun x _ => by rw [gone_nil, Bool.not_false]

theorem gone_all (s : State) (j : SlotId) : s.gone (List.finRange 12) j = (s.slot j).state.restarted := by
  simp [State.gone]

/-- The restart of all slots (01 R30). -/
def restartSlots (s : State) : State := (List.finRange 12).foldl restartSlot s

theorem restartSlots_induct {P : List SlotId → State → Prop} {s : State} (start : P [] s)
    (carry : ∀ done i u, i ∉ done → u.slot i = s.slot i → (s.slot i).state.restarted = true → P done u →
      P (done ++ [i]) (restartCard i u))
    (stand : ∀ done i u, i ∉ done → (s.slot i).state.restarted = false → P done u → P (done ++ [i]) u) :
    P (List.finRange 12) (restartSlots s) :=
  restartSlots_induction start carry stand (List.nodup_finRange 12)

/-! ### What stands aside, and the slots -/

theorem aside_restartSlots (s : State) : Aside s (restartSlots s) :=
  restartSlots_induct (P := fun _ u => Aside s u) (Aside.refl s)
    (fun _ i u _ _ _ h => h.trans (slotFrame_restartCard i u).aside) fun _ _ _ _ _ h => h

theorem restartSlots_stands {s : State} {i : SlotId} (h : (s.slot i).state.restarted = false) :
    (restartSlots s).slot i = s.slot i :=
  restartSlots_induct (P := fun _ u => u.slot i = s.slot i) rfl
    (fun _ j u _ _ hj hu => by
      have hne : i ≠ j := fun e => Bool.false_ne_true ((e ▸ h).symm.trans hj)
      rw [slot_restartCard_ne hne, hu]) fun _ _ _ _ _ hu => hu

theorem CarriedOver.of_start {i : SlotId} {s u t : State} (h : CarriedOver i u t) (hslot : u.slot i = s.slot i)
    (hsets : Aside s u) : CarriedOver i s t := by
  have hlength : ∀ n : Fin 8, u.sets[n].length = s.sets[n].length := fun n => by
    have hset := congrArg ParamSet.length (hsets.sets n)
    exact hset
  refine ⟨h.state, h.reason, h.lines, h.timers, h.screening, hslot ▸ h.transitions, hslot ▸ h.traceRef, h.dropped,
    hslot ▸ h.kept, hslot ▸ h.contacts, h.issued, fun n hn => ?_⟩
  have htransfer := h.transfer n (by rw [hslot]; exact hn)
  rwa [hslot, hlength n] at htransfer

theorem restartSlots_carries {s : State} {i : SlotId} (h : (s.slot i).state.restarted = true) :
    CarriedOver i s (restartSlots s) := by
  have hall := restartSlots_induct (P := fun done u => Aside s u ∧ (i ∈ done → CarriedOver i s u)) (s := s)
    ⟨Aside.refl s, fun hin => absurd hin List.not_mem_nil⟩ ?_ ?_
  · exact hall.2 (List.mem_finRange i)
  · intro done j u hfresh hslot hj ⟨haside, hcarried⟩
    refine ⟨haside.trans (slotFrame_restartCard j u).aside, fun hin => ?_⟩
    by_cases hij : i = j
    · subst hij
      exact (carriedOver_restartCard i u).of_start hslot haside
    · exact (hcarried ((List.mem_append.1 hin).resolve_right fun h => hij (List.mem_singleton.1 h))).later hij
  · intro done j u hfresh hj ⟨haside, hcarried⟩
    refine ⟨haside, fun hin => hcarried ((List.mem_append.1 hin).resolve_right fun hsame => ?_)⟩
    rw [List.mem_singleton.1 hsame, hj] at h
    exact Bool.false_ne_true h

/-! ### The engine -/

theorem restartSlots_jobs {s : State} {j : Job} (hj : j ∈ s.engine.jobs) (h : (s.slot j.slot).state.restarted = false) :
    j ∈ (restartSlots s).engine.jobs :=
  restartSlots_induct (P := fun _ u => j ∈ u.engine.jobs) hj
    (fun _ _ _ _ _ hi hu => jobs_restartCard (fun e => Bool.false_ne_true ((e ▸ h).symm.trans hi)) hu)
    fun _ _ _ _ _ hu => hu

theorem restartSlots_current {s : State} {cur : CurrentJob} (hc : s.engine.current = some cur) (hopen : cur.held = false) :
    (restartSlots s).engine.current =
      some (if (s.slot cur.job.slot).state.restarted then cur.requestAbort s.sets else cur) := by
  have hall := restartSlots_induct (P := fun done u => Aside s u ∧ u.engine.current =
    some (if s.gone done cur.job.slot then cur.requestAbort s.sets else cur)) (s := s)
    ⟨Aside.refl s, by rw [gone_nil]; exact hc⟩ ?_ ?_
  · rw [hall.2, gone_all]
  · intro done i u hfresh hslot hi ⟨haside, hcurrent⟩
    refine ⟨haside.trans (slotFrame_restartCard i u).aside, ?_⟩
    rw [gone_carried hi]
    by_cases hsame : cur.job.slot = i
    · have hstill : s.gone done cur.job.slot = false := by simp [State.gone, hsame, hfresh]
      rw [hstill] at hcurrent
      have hwords : ∀ n : Fin 8, u.sets[n].words = s.sets[n].words := fun n => by
        have hset := congrArg ParamSet.words (haside.sets n)
        exact hset
      rw [restartCard_current_self hcurrent hsame hopen, requestAbort_congr hwords, decide_eq_true hsame, Bool.true_or]
      rfl
    · rw [decide_eq_false hsame, Bool.false_or]
      refine restartCard_current_ne hcurrent ?_
      split
      · rw [requestAbort_job]; exact hsame
      · exact hsame
  · intro done i u hfresh hi ⟨haside, hcurrent⟩
    exact ⟨haside, by rw [gone_stands hi]; exact hcurrent⟩

/-! ### The planner and the sequencer -/

theorem restartSlots_planner (s : State) : (restartSlots s).planner = { s.planner with
    plan := s.planner.plan.filter fun w => !(s.slot w.slot).state.restarted
    room := s.planner.room.filter fun j => !(s.slot j).state.restarted } := by
  have hall := restartSlots_induct (P := fun done u => u.planner = { s.planner with
    plan := s.planner.plan.filter fun w => !s.gone done w.slot
    room := s.planner.room.filter fun j => !s.gone done j }) (s := s) ?_ ?_ ?_
  · simpa only [gone_all] using hall
  · simp only [filter_stands]
  · intro done i u hfresh hslot hi hu
    rw [restartCard_planner, hu]
    simp only [gone_carried hi, Bool.not_or, List.filter_filter, decide_not]
  · intro done i u hfresh hi hu
    simpa only [gone_stands hi] using hu

theorem restartSlots_sequencer (s : State) : (restartSlots s).sequencer = { s.sequencer with
    active := s.sequencer.active.map fun w => if (s.slot w.slot).state.restarted then { w with muted := true } else w
    run := s.sequencer.run.filter fun run => !(s.slot run.slot).state.restarted } := by
  have hall := restartSlots_induct (P := fun done u => u.sequencer = { s.sequencer with
    active := s.sequencer.active.map fun w => if s.gone done w.slot then { w with muted := true } else w
    run := s.sequencer.run.filter fun run => !s.gone done run.slot }) (s := s) ?_ ?_ ?_
  · simpa only [gone_all] using hall
  · have hrun : (s.sequencer.run.filter fun run => !s.gone [] run.slot) = s.sequencer.run := by
      cases s.sequencer.run <;> simp [gone_nil, Option.filter]
    rw [hrun]
    simp [gone_nil]
  · intro done i u hfresh hslot hi hu
    rw [restartCard_sequencer, hu]
    have hactive : ∀ w : ActiveWindow, (if (if s.gone done w.slot then { w with muted := true } else w).slot = i then
        { (if s.gone done w.slot then { w with muted := true } else w) with muted := true }
        else if s.gone done w.slot then { w with muted := true } else w) =
          if (decide (w.slot = i) || s.gone done w.slot) then { w with muted := true } else w := by
      intro w
      cases s.gone done w.slot <;> by_cases hw : w.slot = i <;> simp [hw]
    have hrun : (s.sequencer.run.filter fun run => !s.gone done run.slot).filter (fun run => decide (run.slot ≠ i)) =
        s.sequencer.run.filter fun run => !(decide (run.slot = i) || s.gone done run.slot) := by
      cases s.sequencer.run with
      | none => rfl
      | some run =>
        by_cases hr : run.slot = i
        · subst hr
          cases hgone : s.gone done run.slot <;> simp [Option.filter, hgone]
        · cases hgone : s.gone done run.slot <;> simp [Option.filter, hgone, hr]
    simp only [gone_carried hi, List.map_map, Function.comp_def, hactive, hrun]
  · intro done i u hfresh hi hu
    simpa only [gone_stands hi] using hu

/-! ### The arbiter and the sets -/

/-- What a slot's restart gives back of the committed power, of the ramps, of the pins of a set. -/
def State.givesPower (s : State) (i : SlotId) : Nat :=
  if (s.slot i).state.restarted ∧ (s.slot i).grant then (s.slot i).power else 0

def State.givesRamp (s : State) (i : SlotId) : Nat :=
  if (s.slot i).state.restarted ∧ (s.slot i).grant ∧ (s.slot i).state = .powering then 1 else 0

def State.givesPin (s : State) (n : Fin 8) (i : SlotId) : Nat :=
  if (s.slot i).state.restarted ∧ (s.slot i).pin = some n then 1 else 0

theorem sum_snoc (f : SlotId → Nat) (done : List SlotId) (i : SlotId) :
    ((done ++ [i]).map f).sum = (done.map f).sum + f i := by simp

theorem restartSlots_arbiter (s : State) : (restartSlots s).arbiter = { s.arbiter with
    committed := s.arbiter.committed - ((List.finRange 12).map s.givesPower).sum
    ramping := s.arbiter.ramping - ((List.finRange 12).map s.givesRamp).sum
    queue := s.arbiter.queue.filter fun e => !(s.slot e.slot).state.restarted } := by
  have hall := restartSlots_induct (P := fun done u => u.arbiter = { s.arbiter with
    committed := s.arbiter.committed - (done.map s.givesPower).sum
    ramping := s.arbiter.ramping - (done.map s.givesRamp).sum
    queue := s.arbiter.queue.filter fun e => !s.gone done e.slot }) (s := s) ?_ ?_ ?_
  · simpa only [gone_all] using hall
  · simp only [filter_stands, List.map_nil, List.sum_nil, Nat.sub_zero]
  · intro done i u hfresh hslot hi hu
    have hpower : s.givesPower i = if (s.slot i).grant then (s.slot i).power else 0 := by simp [State.givesPower, hi]
    have hramp : s.givesRamp i = if (s.slot i).grant ∧ (s.slot i).state = .powering then 1 else 0 := by
      simp only [State.givesRamp, hi, true_and]
    rw [restartCard_arbiter, dropBlocks, hslot, hu, sum_snoc, sum_snoc, hpower, hramp, ← Nat.sub_sub, ← Nat.sub_sub]
    simp only [gone_carried hi, Bool.not_or, List.filter_filter, decide_not]
    congr 1
    · split <;> simp
    · split <;> simp
  · intro done i u hfresh hi hu
    have hpower : s.givesPower i = 0 := by simp [State.givesPower, hi]
    have hramp : s.givesRamp i = 0 := by simp [State.givesRamp, hi]
    rw [hu, sum_snoc, sum_snoc, hpower, hramp]
    simp only [gone_stands hi, Nat.add_zero]

theorem unpinSets_pins (pin : Option (Fin 8)) (sets : Vector ParamSet 8) (n : Fin 8) :
    (unpinSets pin sets)[n].pins = sets[n].pins - if pin = some n then 1 else 0 := by
  cases pin with
  | none => rfl
  | some k =>
    by_cases hk : k = n
    · subst hk; simp [unpinSets]
    · have hval : k.val ≠ n.val := fun h => hk (Fin.ext h)
      simp [unpinSets, hk, hval]

theorem restartSlots_pins (s : State) (n : Fin 8) : (restartSlots s).sets[n].pins =
    s.sets[n].pins - ((List.finRange 12).map (s.givesPin n)).sum := by
  refine restartSlots_induct (P := fun done u => u.sets[n].pins = s.sets[n].pins - (done.map (s.givesPin n)).sum)
    (s := s) (by simp) ?_ ?_
  · intro done i u hfresh hslot hi hu
    have hpin : s.givesPin n i = if (s.slot i).pin = some n then 1 else 0 := by simp only [State.givesPin, hi, true_and]
    rw [restartCard_sets, unpinSets_pins, hslot, hu, sum_snoc, hpin, Nat.sub_sub]
  · intro done i u hfresh hi hu
    have hpin : s.givesPin n i = 0 := by simp [State.givesPin, hi]
    rw [hu, sum_snoc, hpin, Nat.add_zero]

/-! ### The port and the recorder -/

/-- The notice of a carried slot. -/
def State.restartNotice (s : State) (i : SlotId) : Notice :=
  .slot i .identifying .warmRestart (saturate 255 (s.slot i).transitions) (s.slot i).faultCount

theorem placeNotice_fresh {n : Notice} {q : List Notice} (h : n.source ∉ q.map Notice.source) :
    placeNotice n q = q ++ [n] := by
  induction q with
  | nil => rfl
  | cons m q ih =>
    rw [List.map_cons, List.mem_cons, not_or] at h
    rw [placeNotice, if_neg fun e => h.1 e.symm, ih h.2, List.cons_append]

/-- With nothing waiting before, the notices of the carried slots wait in ascending order. -/
theorem restartSlots_link {s : State} (hempty : s.link.notices = []) : (restartSlots s).link = { s.link with
    notices := ((List.finRange 12).filter fun i => (s.slot i).state.restarted).map s.restartNotice } := by
  refine restartSlots_induct (P := fun done u => u.link = { s.link with
    notices := (done.filter fun i => (s.slot i).state.restarted).map s.restartNotice }) (s := s) (by
      rw [List.filter_nil, List.map_nil, ← hempty]) ?_ ?_
  · intro done i u hfresh hslot hi hu
    have hnew : (s.restartNotice i).source ∉
        ((done.filter fun i => (s.slot i).state.restarted).map s.restartNotice).map Notice.source := by
      rw [List.map_map]
      intro hin
      obtain ⟨j, hj, hsource⟩ := List.mem_map.1 hin
      exact hfresh (NoticeSource.slot.inj hsource ▸ (List.mem_filter.1 hj).1)
    rw [restartCard_link, hslot, hu, List.filter_append, List.map_append]
    have hone : [i].filter (fun i => (s.slot i).state.restarted) = [i] := by simp [hi]
    rw [hone]
    exact congrArg (fun q => { s.link with notices := q }) (placeNotice_fresh hnew)
  · intro done i u hfresh hi hu
    have hnone : [i].filter (fun i => (s.slot i).state.restarted) = [] := by simp [hi]
    rw [hu, List.filter_append, hnone, List.append_nil]

/-- The bring-up group's slots are all carried: each reports that it leaves. -/
theorem restarted_of_inBringUp {st : SlotState} (h : st.inBringUp = true) : st.restarted = true := by
  cases st <;> first | rfl | cases h

theorem restartSlots_recorder (s : State) : (restartSlots s).recorder = { s.recorder with
    gateReports := s.recorder.gateReports ++ ((List.finRange 12).filter fun i => (s.slot i).state.inBringUp).map fun i =>
      { slot := i, entering := false } } := by
  refine restartSlots_induct (P := fun done u => u.recorder = { s.recorder with
    gateReports := s.recorder.gateReports ++ (done.filter fun i => (s.slot i).state.inBringUp).map fun i =>
      { slot := i, entering := false } }) (s := s) (by
      rw [List.filter_nil, List.map_nil, List.append_nil]) ?_ ?_
  · intro done i u hfresh hslot hi hu
    rw [restartCard_recorder, hslot, hu, List.filter_append, List.map_append, ← List.append_assoc]
    cases hgroup : (s.slot i).state.inBringUp <;> simp [hgroup]
  · intro done i u hfresh hi hu
    have hout : (s.slot i).state.inBringUp = false := Bool.eq_false_iff.2 fun h =>
      Bool.false_ne_true (hi.symm.trans (restarted_of_inBringUp h))
    have hnone : [i].filter (fun i => (s.slot i).state.inBringUp) = [] := by simp [hout]
    rw [hu, List.filter_append, hnone, List.append_nil]

end Sys2Proof.Machine
end

section
/-!
PROOF. The warm restart put together: the port, the slots, the recorder (01 R30, 02 R49, 10 R194, R195).
-/
namespace Sys2Proof.Machine

/-! ### The completions taken before it (02 R45) -/

theorem execAll_everyCompletion (n : SlotId → Nat) (l : List SlotId) : ∀ s : State, s.inReset = false →
    execAll (l.flatMap fun i => List.replicate (n i) (.jobCompletionTaken i)) s =
      .next (l.foldl (fun u i => takeCompletions i (n i) u) s) := by
  induction l with
  | nil => exact fun s _ => rfl
  | cons i l ih =>
    intro s hlive
    rw [List.flatMap_cons, execAll_append _ _ _ _ (execAll_completions i (n i) hlive)]
    exact ih _ ((takeCompletions_inReset i (n i) s).trans hlive)

theorem catchUpAll_nothing {s : State} (h : ∀ i, (s.slot i).inbox.completions = []) : catchUpAll s = s := by
  have hnone : ∀ l : List SlotId,
      l.foldl (fun u i => takeCompletions i (s.slot i).inbox.completions.length u) s = s := by
    intro l
    induction l with
    | nil => rfl
    | cons i l ih => rw [List.foldl_cons, h]; exact ih
  exact hnone _

/-! ### The recorder's part (09 R183) -/

/-- The recorder's notice of its restart. -/
def recorderRestartNotice : Notice := .recorder .stateChange 0 0 none 0

theorem restartRecorder_eq (s : State) : restartRecorder s = { s with
    recorder := s.recorder.restart
    link := { s.link with notices := (if s.recorder.state = .stopped then s.link.notices
      else placeNotice recorderRestartNotice s.link.notices) } } := by
  unfold restartRecorder
  dsimp only
  split <;> rfl

/-! ### The port (10 R195) -/

theorem slot_clearPort (s : State) (i : SlotId) :
    (clearPort s).slot i = { s.slot i with transitions := 0, traceRef := none } := by
  unfold clearPort
  exact slot_mapSlots s _ i

theorem performRestart_eq (s : State) :
    performRestart s = restartRecorder (restartSlots (clearPort (catchUpAll s))) := rfl

/-- The notices that the restart leaves: those of the carried slots, then the recorder's if it was not STOPPED. -/
def State.restartNotices (s : State) : List Notice :=
  (((List.finRange 12).filter fun i => (s.slot i).state.restarted).map (clearPort s).restartNotice) ++
    if s.recorder.state = .stopped then [] else [recorderRestartNotice]

theorem restartNotices_sources (s : State) : s.restartNotices.map Notice.source =
    (((List.finRange 12).filter fun i => (s.slot i).state.restarted).map NoticeSource.slot) ++
      if s.recorder.state = .stopped then [] else [.recorder] := by
  rw [State.restartNotices, List.map_append, List.map_map]
  split <;> rfl

theorem restartNotices_nodup (s : State) : (s.restartNotices.map Notice.source).Nodup := by
  rw [restartNotices_sources]
  refine List.nodup_append.2 ⟨?_, ?_, ?_⟩
  · exact List.pairwise_map.2 (List.Pairwise.imp (fun hne h => hne (NoticeSource.slot.inj h))
      (List.Pairwise.filter _ (List.nodup_finRange 12)))
  · split <;> simp
  · intro a ha b hb
    obtain ⟨i, -, rfl⟩ := List.mem_map.1 ha
    split at hb
    · exact absurd hb List.not_mem_nil
    · rw [List.mem_singleton.1 hb]
      exact NoticeSource.noConfusion

theorem mem_restartNotices (s : State) (n : Notice) : n ∈ s.restartNotices ↔
    (∃ i, (s.slot i).state.restarted = true ∧ n = .slot i .identifying .warmRestart 1 (s.slot i).faultCount) ∨
      (s.recorder.state ≠ .stopped ∧ n = recorderRestartNotice) := by
  have hnotice : ∀ i, (clearPort s).restartNotice i = .slot i .identifying .warmRestart 1 (s.slot i).faultCount := by
    intro i
    rw [State.restartNotice, slot_clearPort]
    rfl
  rw [State.restartNotices, List.mem_append, List.mem_map]
  refine or_congr ⟨fun ⟨i, hi, hn⟩ => ⟨i, (List.mem_filter.1 hi).2, by rw [← hn, hnotice]⟩, fun ⟨i, hi, hn⟩ =>
    ⟨i, List.mem_filter.2 ⟨List.mem_finRange i, hi⟩, by rw [hn, hnotice]⟩⟩ ?_
  split
  · next hstopped => exact ⟨fun h => absurd h List.not_mem_nil, fun h => absurd hstopped h.1⟩
  · next hrunning => exact ⟨fun h => ⟨hrunning, List.mem_singleton.1 h⟩, fun h => List.mem_singleton.2 h.2⟩

theorem state_clearPort (s : State) (i : SlotId) : ((clearPort s).slot i).state = (s.slot i).state := by
  rw [slot_clearPort]

/-- The port after the slots' restart. -/
theorem link_restarted (s : State) : (restartSlots (clearPort s)).link = { (clearPort s).link with
    notices := ((List.finRange 12).filter fun i => (s.slot i).state.restarted).map (clearPort s).restartNotice } := by
  rw [restartSlots_link rfl]
  simp only [state_clearPort]

theorem recorder_restarted (s : State) : (restartSlots (clearPort s)).recorder = { s.recorder with
    gateReports := s.recorder.gateReports ++ ((List.finRange 12).filter fun i => (s.slot i).state.inBringUp).map fun i =>
      { slot := i, entering := false } } := by
  rw [restartSlots_recorder]
  simp only [state_clearPort]
  rfl

/-- The whole restart after its completions: the slots' restart, with the recorder and the notices as they then stand. -/
theorem restart_eq (s : State) : restartRecorder (restartSlots (clearPort s)) = { restartSlots (clearPort s) with
    recorder := (restartSlots (clearPort s)).recorder.restart
    link := { (clearPort s).link with notices := s.restartNotices } } := by
  have hstate : (restartSlots (clearPort s)).recorder.state = s.recorder.state := by rw [recorder_restarted]
  have hnotices : (if s.recorder.state = .stopped then (restartSlots (clearPort s)).link.notices
      else placeNotice recorderRestartNotice (restartSlots (clearPort s)).link.notices) = s.restartNotices := by
    rw [link_restarted, State.restartNotices]
    split
    · rw [List.append_nil]
    · refine placeNotice_fresh ?_
      rw [List.map_map]
      intro hin
      obtain ⟨i, -, hsource⟩ := List.mem_map.1 hin
      exact NoticeSource.noConfusion hsource
  rw [restartRecorder_eq, hstate, hnotices, link_restarted]

/-! ### The power and the pins -/

theorem sum_indicator (p : SlotId → Bool) (l : List SlotId) : (l.map fun i => if p i then 1 else 0).sum = l.countP p := by
  induction l with
  | nil => rfl
  | cons i l ih =>
    rw [List.map_cons, List.sum_cons, ih, List.countP_cons]
    omega

theorem sum_of_sums {α : Type} (f g : α → Nat) (l : List α) :
    (l.map fun a => f a + g a).sum = (l.map f).sum + (l.map g).sum := by
  induction l with
  | nil => rfl
  | cons a l ih =>
    simp only [List.map_cons, List.sum_cons, ih]
    omega

/-- A granted slot is carried, or it is RUNNING (01 R30, 05 R89). -/
theorem grantedPower_split {s : State} (hgrant : ∀ i, (s.slot i).grant = (s.slot i).state.mainOn) :
    s.grantedPower = ((List.finRange 12).map s.givesPower).sum +
      ((List.finRange 12).map fun i => if (s.slot i).state = .running then (s.slot i).power else 0).sum := by
  have hsplit : ∀ i, (if (s.slot i).grant then (s.slot i).power else 0) =
      s.givesPower i + if (s.slot i).state = .running then (s.slot i).power else 0 := by
    intro i
    rw [State.givesPower, hgrant i]
    cases (s.slot i).state <;> simp [SlotState.mainOn, SlotState.restarted]
  rw [State.grantedPower, ← sum_of_sums]
  exact congrArg List.sum (List.map_congr_left fun i _ => hsplit i)

theorem givesRamp_all {s : State} (hgrant : ∀ i, (s.slot i).grant = (s.slot i).state.mainOn) :
    ((List.finRange 12).map s.givesRamp).sum = s.countState .powering := by
  have hramp : ∀ i, s.givesRamp i = if decide ((s.slot i).state = .powering) then 1 else 0 := by
    intro i
    rw [State.givesRamp, hgrant i]
    cases (s.slot i).state <;> simp [SlotState.mainOn, SlotState.restarted]
  rw [List.map_congr_left fun i _ => hramp i]
  exact sum_indicator _ _

theorem givesPin_all {s : State} (hpin : ∀ i, (s.slot i).pin.isSome → (s.slot i).state = .configuring) (n : Fin 8) :
    ((List.finRange 12).map (s.givesPin n)).sum = s.pinners n := by
  have hgives : ∀ i, s.givesPin n i = if decide ((s.slot i).pin = some n) then 1 else 0 := by
    intro i
    by_cases hn : (s.slot i).pin = some n
    · have hst := hpin i (by rw [hn]; rfl)
      simp [State.givesPin, hn, hst, SlotState.restarted]
    · simp [State.givesPin, hn]
  rw [List.map_congr_left fun i _ => hgives i]
  exact sum_indicator _ _

end Sys2Proof.Machine
end

section
/-!
PROOF. The last byte of the WARM_RESTART reply is the restart (01 R30, 10 R194, R195).
-/
namespace Sys2Proof.Machine

/-- The state of the restart wait in which the reply to WARM_RESTART is on the line. -/
theorem sendingRestartReply_of {s : State} {r : Reply} {bytes : List Byte} (hwait : s.link.restartWait = true)
    (hreply : s.link.replies = [r]) (htx : s.link.tx = some (.reply bytes)) : s.sendingRestartReply = true := by
  simp [State.sendingRestartReply, hwait, hreply, htx]

theorem mem_bringUp_iff (st : SlotState) : st ∈ [.powering, .resetHold, .readyWait, .configuring] ↔ st.inBringUp = true := by
  cases st <;> simp [SlotState.inBringUp]

theorem aside_clearPort (s : State) : Aside s (clearPort s) := ⟨rfl, rfl, rfl, rfl, rfl, rfl, rfl, rfl, fun _ => rfl, rfl, rfl⟩

/-- What the restart's giving back reads of a slot, the port's own clearing leaves. -/
theorem givesPower_clearPort (s : State) (i : SlotId) : (clearPort s).givesPower i = s.givesPower i := by
  rw [State.givesPower, slot_clearPort]
  rfl

theorem givesRamp_clearPort (s : State) (i : SlotId) : (clearPort s).givesRamp i = s.givesRamp i := by
  rw [State.givesRamp, slot_clearPort]
  rfl

theorem givesPin_clearPort (s : State) (n : Fin 8) (i : SlotId) : (clearPort s).givesPin n i = s.givesPin n i := by
  rw [State.givesPin, slot_clearPort]
  rfl

section
variable {u : State}

/-- The queues of the port's caller: only carried slots stood in them. -/
theorem queues_restarted (h : u.queuesSound) : (restartSlots (clearPort u)).planner.room = [] ∧
    (restartSlots (clearPort u)).arbiter.queue = [] := by
  obtain ⟨-, -, hstates⟩ := h
  rw [restartSlots_planner, restartSlots_arbiter]
  simp only [state_clearPort]
  refine ⟨List.filter_eq_nil_iff.2 fun j hj => ?_, List.filter_eq_nil_iff.2 fun e he => ?_⟩
  · rw [(hstates j).2.1 hj]
    decide
  · rw [(hstates e.slot).1.1 (List.mem_map_of_mem he)]
    decide

theorem plan_restarted (h : u.planSound) : (restartSlots (clearPort u)).planner.plan =
    u.planner.plan.filter fun w => decide ((u.slot w.slot).state = .running) := by
  obtain ⟨-, hstates, -⟩ := h
  rw [restartSlots_planner]
  simp only [state_clearPort]
  refine List.filter_congr fun w hw => ?_
  rcases (hstates w.slot).1 (List.mem_map_of_mem hw) with hst | hst <;> rw [hst] <;> decide

theorem power_restarted (h : u.powerSound) : (restartSlots (clearPort u)).arbiter.ramping = 0 ∧
    (restartSlots (clearPort u)).arbiter.committed = ((List.finRange 12).map fun i =>
      if (u.slot i).state = .running then (u.slot i).power else 0).sum := by
  obtain ⟨hgrant, hcommitted, hramping, -⟩ := h
  have hpower : u.arbiter.committed - ((List.finRange 12).map u.givesPower).sum = ((List.finRange 12).map fun i =>
      if (u.slot i).state = .running then (u.slot i).power else 0).sum := by
    rw [hcommitted, grantedPower_split hgrant, Nat.add_sub_cancel_left]
  have hramp : u.arbiter.ramping - ((List.finRange 12).map u.givesRamp).sum = 0 := by
    rw [hramping, givesRamp_all hgrant, Nat.sub_self]
  rw [restartSlots_arbiter]
  simp only [List.map_congr_left fun i _ => givesPower_clearPort u i,
    List.map_congr_left fun i _ => givesRamp_clearPort u i]
  exact ⟨hramp, hpower⟩

theorem pins_restarted (h : u.setsSound) (n : Fin 8) : (restartSlots (clearPort u)).sets[n].pins = 0 := by
  obtain ⟨hsets, hpins⟩ := h
  have hgives : ((List.finRange 12).map ((clearPort u).givesPin n)).sum = u.sets[n].pins := by
    rw [List.map_congr_left fun i _ => givesPin_clearPort u n i, givesPin_all hpins, (hsets n).2.1]
  rw [restartSlots_pins, hgives]
  exact Nat.sub_self _

theorem recorder_restart : (restartSlots (clearPort u)).recorder.restart = { u.recorder with
    state := .stopped, memory := [], events := [], w := 0, r := 0, lastWrite := false, sequence := 0, refused := 0
    pattern := 0, latches := [], overlap := none, writePos := 0, written := 0
    gateReports := u.recorder.gateReports ++ ((List.finRange 12).filter fun i =>
      decide ((u.slot i).state ∈ [.powering, .resetHold, .readyWait, .configuring])).map fun i =>
        { slot := i, entering := false } } := by
  have hgroup : ((List.finRange 12).filter fun i => (u.slot i).state.inBringUp) = (List.finRange 12).filter fun i =>
      decide ((u.slot i).state ∈ [.powering, .resetHold, .readyWait, .configuring]) :=
    List.filter_congr fun i _ => by
      rw [Bool.eq_iff_iff, decide_eq_true_iff, mem_bringUp_iff]
  rw [recorder_restarted, hgroup]
  rfl

end

/-- What the restart does to a carried slot, measured from before the port's clearing. -/
theorem carried_restarted {u : State} {i : SlotId} (h : (u.slot i).state.restarted = true) :
    CarriedOver i (clearPort u) (restartSlots (clearPort u)) :=
  restartSlots_carries (by rw [state_clearPort]; exact h)

theorem stands_restarted {u : State} {i : SlotId} (h : (u.slot i).state.restarted = false) :
    (restartSlots (clearPort u)).slot i = { u.slot i with transitions := 0, traceRef := none } :=
  (restartSlots_stands (by rw [state_clearPort]; exact h)).trans (slot_clearPort u i)

theorem current_restarted {u : State} {cur : CurrentJob} (hcur : u.engine.current = some cur) (hopen : cur.held = false) :
    (restartSlots (clearPort u)).engine.current =
      some (if (u.slot cur.job.slot).state.restarted then cur.requestAbort u.sets else cur) := by
  have hcurrent := restartSlots_current (s := clearPort u) hcur hopen
  rw [state_clearPort] at hcurrent
  exact hcurrent

theorem jobs_restarted {u : State} {j : Job} (hj : j ∈ u.engine.jobs) (h : (u.slot j.slot).state.restarted = false) :
    j ∈ (restartSlots (clearPort u)).engine.jobs :=
  restartSlots_jobs (s := clearPort u) hj (by rw [state_clearPort]; exact h)

theorem sequencer_restarted (u : State) : (restartSlots (clearPort u)).sequencer = { u.sequencer with
    active := u.sequencer.active.map fun w => if (u.slot w.slot).state.restarted then { w with muted := true } else w
    run := u.sequencer.run.filter fun run => !(u.slot run.slot).state.restarted } := by
  have hsequencer := restartSlots_sequencer (clearPort u)
  simp only [state_clearPort] at hsequencer
  exact hsequencer

theorem inReset_restartSlots (s : State) : (restartSlots s).inReset = s.inReset :=
  restartSlots_induct (P := fun _ u => u.inReset = s.inReset) rfl
    (fun _ i u _ _ _ h => (slotFrame_restartCard i u).inReset.trans h) fun _ _ _ _ _ h => h

theorem inReset_catchUpAll (s : State) : (catchUpAll s).inReset = s.inReset := by
  have hmany : ∀ (l : List SlotId) (u : State), (l.foldl (fun u i =>
      takeCompletions i (s.slot i).inbox.completions.length u) u).inReset = u.inReset := by
    intro l
    induction l with
    | nil => exact fun u => rfl
    | cons i l ih => exact fun u => (ih _).trans (takeCompletions_inReset i _ u)
  exact hmany _ s

/-- Settles O24. -/
theorem warmRestartCarriesSlots : Obligations.WarmRestartCarriesSlots := by
  intro s r bytes hlive hwait hreply htx
  have hsending := sendingRestartReply_of hwait hreply htx
  have hport := (quiet_catchUpAll s).link
  have hperform := (performRestart_eq s).trans (restart_eq (catchUpAll s))
  have hexec := execAll_everyCompletion (fun i => (s.slot i).inbox.completions.length) (List.finRange 12) s hlive
  have hnothing := catchUpAll_nothing (s := s)
  have hreset := (inReset_catchUpAll s).trans hlive
  change execAll _ s = .next (catchUpAll s) at hexec
  -- the slots' restart and the port's clearing are spoken of by what they leave
  generalize catchUpAll s = u at hport hperform hexec hnothing hreset
  have haside := (aside_clearPort u).trans (aside_restartSlots (clearPort u))
  have hlive' : (restartSlots (clearPort u)).inReset = false := (inReset_restartSlots _).trans hreset
  have hlink : (clearPort u).link = { u.link with
    receiver := .hunting, replies := [], notices := [], tx := none, restartWait := false } := rfl
  have hcarries := @carried_restarted u
  have hstands := @stands_restarted u
  have hcurrent := @current_restarted u
  have hjobs := @jobs_restarted u
  have hsequencer := sequencer_restarted u
  have hqueues := @queues_restarted u
  have hplan := @plan_restarted u
  have hpower := @power_restarted u
  have hpins := @pins_restarted u
  have hrecorder := @recorder_restart u
  have hslot := slot_clearPort u
  have hsets : (clearPort u).sets = u.sets := rfl
  generalize restartSlots (clearPort u) = w at *
  generalize clearPort u = p at *
  refine ⟨u, { w with recorder := w.recorder.restart, link := { p.link with notices := u.restartNotices } }, hexec,
    fun hnone => hnothing hnone, ?perform, ?sent, ?link, ?ready, restartNotices_nodup u, fun n => ?notices,
    fun i hi => hstands ?_, fun i hi => ?carried, fun cur => hcurrent, fun j hj hstill => hjobs hj ?_, hsequencer,
    haside.settings, haside.budget, haside.rampLimit, hqueues, hplan, hpower, haside.sets, hpins, hrecorder,
    haside.pending, haside.times, haside.policy, haside.keys, haside.monitor⟩
  case perform =>
    show whenLive restartSent s = _
    rw [whenLive_live hlive, restartSent, if_pos hsending, hperform]
  case sent =>
    show whenLive endSending s = _
    rw [whenLive_live hlive, endSending, htx]
    dsimp only
    rw [if_pos hsending, hperform]
  case link =>
    have hcleared := congrArg (fun l : Link => { l with
      replies := [], notices := u.restartNotices, tx := none, receiver := .hunting, restartWait := false }) hport
    rw [hlink]
    exact hcleared
  case ready =>
    simp [State.linkRdy, hlive', hlink, Config.replyPlaces]
  case notices =>
    have hnotices := mem_restartNotices u n
    simp only [restarted_iff] at hnotices
    exact hnotices
  case carried =>
    have hover := hcarries ((restarted_iff _).2 hi)
    have htransitions := hover.transitions
    have htraceRef := hover.traceRef
    have hkept := hover.kept
    have hcontacts := hover.contacts
    have htransfer := hover.transfer
    rw [hslot] at htransitions htraceRef hkept hcontacts htransfer
    rw [hsets] at htransfer
    exact ⟨hover.state, hover.reason, hover.lines, hover.timers, hover.screening, htransitions, htraceRef, hover.dropped.1,
      hover.dropped.2.1, hover.dropped.2.2, hkept.1, hkept.2, hcontacts.1, hcontacts.2, hover.issued, htransfer⟩
  all_goals
    rw [← Bool.not_eq_true, restarted_iff]
    assumption

end Sys2Proof.Machine
end
